-- ==== Sys2Proof/Word.lean ====
section
/-! DEFINITION. The words of QSCAN: the widths that spec/00_scope.md section 5 fixes. -/

namespace Sys2Proof

/-- A bus word, a control register, a command word: 32 bits (R62, R22, R80). -/
abbrev Word := BitVec 32

/-- A DMEM element: a 16-bit pattern, read as a signed two's-complement integer (R5, R60). -/
abbrev Elem := BitVec 16

/-- One byte of the bus window (R66). -/
abbrev Byte := BitVec 8

/-- A byte offset in the bus window of 0x8000 bytes (R62). -/
abbrev BusOffset := BitVec 15

/-- A packed row register ROWr (R34). -/
abbrev Row := BitVec 64

end Sys2Proof
end

