-- ==== Sys2Proof/Syntax.lean ====
section
/-! DEFINITION. The eight commands of QSCAN (spec/30_encoding.md R81, R88). -/

namespace Sys2Proof

/-- The scan order ORD: 0 is XY, 1 is YX (R82). -/
inductive ScanOrder
  | xy
  | yx
deriving DecidableEq, Repr

/-- The commands, one constructor per row of spec/opcode_table.json (R81, R88).
`slog2` is the SLOG2 field: the row stride is `2 ^ slog2` elements (R83). -/
inductive Instr
  /-- NOP (R196). -/
  | nop
  /-- QUANT (R100). -/
  | quant
  /-- DEQUANT (R120). -/
  | dequant
  /-- ABS (R170). -/
  | abs
  /-- ADDSIGN (R172). -/
  | addsign
  /-- SCANB.ord slog2 (R144). -/
  | scanb (ord : ScanOrder) (slog2 : Nat)
  /-- SCANR.ord (R146). -/
  | scanr (ord : ScanOrder)
  /-- ISCANB.ord slog2 (R148). -/
  | iscanb (ord : ScanOrder) (slog2 : Nat)
deriving DecidableEq, Repr

end Sys2Proof
end

