-- ==== Sys2Proof/WellFormed.lean ====
section
/-! DEFINITION. Which terms of `Instr` are commands that a 32-bit word can carry (spec/30_encoding.md R83, R88). -/

namespace Sys2Proof

/-- SLOG2 is a 3-bit field: "Values 0 to 7 can be encoded" (R83). Values 0 and 1 are encodable and decode;
they end with error STRIDE when executed (R205), so they are well formed. -/
def Instr.wellFormed : Instr → Bool
  | .nop => true
  | .quant => true
  | .dequant => true
  | .abs => true
  | .addsign => true
  | .scanb _ slog2 => decide (slog2 < 8)
  | .scanr _ => true
  | .iscanb _ slog2 => decide (slog2 < 8)

end Sys2Proof
end

