-- ==== Sys2Proof/Decode.lean ====
section
/-! DEFINITION. The command word: decoding, encoding and the opcode map (spec/30_encoding.md R80 to R88). -/

namespace Sys2Proof

/-- Why a word is ILLEGAL: the three causes that R201 names. All three end with the same error code (R200). -/
inductive Illegal
  /-- w[31:8] is not zero. -/
  | reservedBits
  /-- OP is 0x8 to 0xF. -/
  | reservedOp
  /-- A nonzero ORD or SLOG2 field in a command that does not use it. -/
  | unusedField
deriving DecidableEq, Repr

/-- The OP field w[3:0] (R80). -/
def opField (w : Word) : BitVec 4 := w.extractLsb' 0 4

/-- The ORD field w[4] (R80). -/
def ordField (w : Word) : BitVec 1 := w.extractLsb' 4 1

/-- The SLOG2 field w[7:5] (R80). -/
def slog2Field (w : Word) : BitVec 3 := w.extractLsb' 5 3

/-- The reserved field w[31:8] (R80). -/
def reservedField (w : Word) : BitVec 24 := w.extractLsb' 8 24

/-- ORD as a scan order: 0 selects XY, 1 selects YX (R82). -/
def orderOfField (b : BitVec 1) : ScanOrder := if b = 0#1 then .xy else .yx

/-- A command that uses neither ORD nor SLOG2: both must be 0 (R84). -/
def decodePlain (w : Word) (i : Instr) : Except Illegal Instr :=
  if ordField w = 0#1 ∧ slog2Field w = 0#3 then .ok i else .error .unusedField

/-- `decode(w)` of R84: total on every 32-bit word; the error is ILLEGAL, with its cause. -/
def decode (w : Word) : Except Illegal Instr :=
  if reservedField w ≠ 0#24 then .error .reservedBits
  else
    match (opField w).toNat with
    | 0 => decodePlain w .nop
    | 1 => decodePlain w .quant
    | 2 => decodePlain w .dequant
    | 3 => decodePlain w .abs
    | 4 => decodePlain w .addsign
    | 5 => .ok (.scanb (orderOfField (ordField w)) (slog2Field w).toNat)
    | 6 => if slog2Field w = 0#3 then .ok (.scanr (orderOfField (ordField w))) else .error .unusedField
    | 7 => .ok (.iscanb (orderOfField (ordField w)) (slog2Field w).toNat)
    | _ => .error .reservedOp

/-- The ORD bit of a scan order (R82). -/
def ordBit : ScanOrder → BitVec 1
  | .xy => 0#1
  | .yx => 1#1

/-- A command word from its fields, laid out as R80 draws it. -/
def wordOfFields (slog2 : BitVec 3) (ord : BitVec 1) (op : BitVec 4) : Word :=
  0#24 ++ slog2 ++ ord ++ op

/-- The command word of a command: the "word" column of R95. -/
def encode : Instr → Word
  | .nop => wordOfFields 0#3 0#1 0x0#4
  | .quant => wordOfFields 0#3 0#1 0x1#4
  | .dequant => wordOfFields 0#3 0#1 0x2#4
  | .abs => wordOfFields 0#3 0#1 0x3#4
  | .addsign => wordOfFields 0#3 0#1 0x4#4
  | .scanb ord slog2 => wordOfFields (BitVec.ofNat 3 slog2) (ordBit ord) 0x5#4
  | .scanr ord => wordOfFields 0#3 (ordBit ord) 0x6#4
  | .iscanb ord slog2 => wordOfFields (BitVec.ofNat 3 slog2) (ordBit ord) 0x7#4

/-- The mnemonic of a command (R81). -/
def Instr.mnemonic : Instr → String
  | .nop => "NOP"
  | .quant => "QUANT"
  | .dequant => "DEQUANT"
  | .abs => "ABS"
  | .addsign => "ADDSIGN"
  | .scanb _ _ => "SCANB"
  | .scanr _ => "SCANR"
  | .iscanb _ _ => "ISCANB"

/-- One row of the opcode map of R88: "A word w is the command of a row when (w AND mask) = match". -/
structure OpcodeRow where
  mnemonic : String
  pattern : Word
  mask : Word
deriving DecidableEq, Repr

/-- The row covers the word. -/
def OpcodeRow.covers (r : OpcodeRow) (w : Word) : Bool := (w &&& r.mask) == r.pattern

/-- The opcode map of R88, row by row. -/
def opcodeMap : List OpcodeRow :=
  [ ⟨"NOP", 0x00000000#32, 0xFFFFFFFF#32⟩,
    ⟨"QUANT", 0x00000001#32, 0xFFFFFFFF#32⟩,
    ⟨"DEQUANT", 0x00000002#32, 0xFFFFFFFF#32⟩,
    ⟨"ABS", 0x00000003#32, 0xFFFFFFFF#32⟩,
    ⟨"ADDSIGN", 0x00000004#32, 0xFFFFFFFF#32⟩,
    ⟨"SCANB", 0x00000005#32, 0xFFFFFF0F#32⟩,
    ⟨"SCANR", 0x00000006#32, 0xFFFFFFEF#32⟩,
    ⟨"ISCANB", 0x00000007#32, 0xFFFFFF0F#32⟩ ]

/-- The command word from the low `nbits` bits of `w`, every bit above them 0 (bit 0 is the least significant
bit, as spec/opcode_table.json numbers them). -/
def tableWord (nbits w : Nat) : Word := BitVec.ofNat 32 (w % 2 ^ nbits)

/-- What the decoder reads from a command word given as the opcode table numbers its bits. A command is one 32-bit
word (R87), so bits from 32 up belong to no command. -/
def decodeTableWord (nbits w : Nat) : Option Instr :=
  if w % 2 ^ nbits < 2 ^ 32 then
    match decode (tableWord nbits w) with
    | .ok i => some i
    | .error _ => none
  else none

end Sys2Proof
end

