-- ==== Sys2Proof/Config.lean ====
section
/-! DEFINITION. What an implementation of QSCAN or its platform fixes, and the values the spec leaves free
(spec/10_state.md R42). Each is an opaque constant: no proof can see its value, so whatever is proved holds for
every value. -/

namespace Sys2Proof.Config

/-- The value that the `n`-th MemRead of a run gives when it reads a DMEM element nothing has written since reset:
"an arbitrary 16-bit value, chosen nondeterministically for each read" (U3, R69). Free value, log 1. -/
opaque unwrittenElem : Nat → Elem

/-- T_CMD of the `n`-th accepted command, counted in what the host does before its execution (non-stalling accesses and,
in the notation of R95, its own branches): any finite number, zero included (R72, R252, U6). Free value, log 2. -/
opaque pollsBeforeCompletion : Nat → Nat

/-- The scan tables as the platform was built with them, before the test of R140: `rawScanTable o k` is a raster
position (R140, U12). Free value, log 5; the model uses it through `Machine.scanTable`. -/
opaque rawScanTable : ScanOrder → Fin 16 → Fin 16

/-- QS_BASE: where the platform puts the bus window (R62, U7). OPEN parameter, log 7. -/
opaque qsBase : Nat

/-- What a host program's name stands for before any `rd` has named it: the spec gives it no value (R95).
Free value, log 9. -/
opaque unreadName : Nat → Word

end Sys2Proof.Config
end

