-- ==== Sys2Proof/Machine/Arith.lean ====
section
/-! DEFINITION. The arithmetic primitives of spec/00_scope.md R5 to R8, on mathematical integers. -/

namespace Sys2Proof.Machine

/-- `sext_16` (R5): an element as a signed two's-complement integer. -/
def sext16 (e : Elem) : Int := e.toInt

/-- `trunc_16` (R5): the low 16 bits of an integer. -/
def trunc16 (v : Int) : Elem := BitVec.ofInt 16 v

/-- `sat16` (R6): the clamp to the signed 16-bit range. -/
def sat16 (v : Int) : Int := if v < -32768 then -32768 else if v > 32767 then 32767 else v

/-- `sign` (R7). -/
def signOf (v : Int) : Int := if v > 0 then 1 else if v = 0 then 0 else -1

/-- `abs` (R7): the mathematical absolute value, so that of −32768 is 32768. -/
def absOf (v : Int) : Int := if v < 0 then -v else v

/-- `abs_sat16` (R7): the clamped magnitude. -/
def absSat16 (v : Int) : Int := sat16 (absOf v)

/-- `floor_shr` (R8): `floor(v / 2^s)`, toward negative infinity. -/
def floorShr (v : Int) (s : Nat) : Int := v.fdiv (2 ^ s)

end Sys2Proof.Machine
end

