-- ==== Sys2Proof/Machine/State.lean ====
section
/-! DEFINITION. The state of QSCAN (spec/10_state.md), the reasons a step can stop, and the state after reset. -/

namespace Sys2Proof.Machine

/-- DMEM as bytes of the bus window (R63, R66): a list of (window offset, byte) pairs, offsets strictly rising. A byte
not listed has not been written since reset and has no value (R40, R41 "unwritten"; log 1). -/
abbrev Memory := List Host.Cell

/-- A transaction of the bus slave port (R79): `size` is in bytes and `off` is the byte offset in the window (R62). -/
inductive BusAccess
  /-- BusRead(off, size). -/
  | read (off : BusOffset) (size : Nat)
  /-- BusWrite(off, size, data). -/
  | write (off : BusOffset) (size : Nat) (data : Word)
deriving DecidableEq, Repr

/-- The bus port's answer to an accepted access (R79). -/
inductive Reply
  /-- The data of a read. -/
  | data (w : Word)
  /-- A write took effect. -/
  | ok
deriving DecidableEq, Repr

/-- The complete architectural state of QSCAN, field for field the record of R41. -/
structure Device where
  /-- CTRL.IRQ_EN (R23). -/
  irqEn : Bool
  /-- STATUS.BUSY (R24): a command is pending (R38). -/
  busy : Bool
  /-- STATUS.DONE (R24). -/
  done : Bool
  /-- STATUS.ERRS (R24). -/
  errs : Bool
  /-- STATUS.DQSAT (R24). -/
  dqsat : Bool
  /-- STATUS.ERR_CODE (R24, R200). -/
  errCode : BitVec 4
  /-- The CMD read value: the last accepted command word (R26). -/
  cmdLast : Word
  /-- SCALE (R27). -/
  scale : Word
  /-- SHIFT (R28). -/
  shift : Word
  /-- ADD (R29). -/
  add : Word
  /-- DST (R30). -/
  dst : Word
  /-- SRC (R31). -/
  src : Word
  /-- LEN (R32). -/
  len : Word
  /-- NZCNT (R33). -/
  nzcnt : Word
  /-- ROW0 (R34). -/
  row0 : Row
  /-- ROW1 (R34). -/
  row1 : Row
  /-- ROW2 (R34). -/
  row2 : Row
  /-- ROW3 (R34). -/
  row3 : Row
  /-- DMEM (R37, R60). -/
  dmem : Memory
deriving DecidableEq, Repr

/-- The model's state: the device of R41, and beside it the device's inputs and outputs and the counters that index the
free values. The fields declared here are the model's own, not the spec's (logs 1 to 4). -/
structure State extends Device where
  /-- The reset input `rst` (R240), sampled by the next step. `State.sample` drives it, before any step (log 4). -/
  rst : Bool
  /-- Host accesses issued and not yet answered, oldest first (R64). -/
  pending : List BusAccess
  /-- Answers of the bus port, newest first (R79). -/
  replies : List Reply
  /-- What the host may still do before the pending command's execution, counted in non-stalling accesses and in branches of
  its own (R72, R252, U6; log 2). -/
  pollsLeft : Nat
  /-- Commands accepted so far: the index of `Config.pollsBeforeCompletion`. -/
  accepted : Nat
  /-- MemReads done so far: the index of `Config.unwrittenElem`. -/
  memReads : Nat
deriving DecidableEq, Repr

/-- Why a run stops. Only a host access can stop one: "the run of the program ends at that access" (R213, U4).
Both are safe: nothing is claimed of a run past them. -/
inductive Fault
  /-- Raised by a host access whose size is not 4 bytes: a bus error (R65). Safe. -/
  | busErrorSize (size : Nat)
  /-- Raised by a 4-byte host access at an offset that is no multiple of 4: a bus error (R65). Safe. -/
  | busErrorAlignment (off : BusOffset)
deriving DecidableEq, Repr

/-- Why a step has no meaning. -/
inductive Refusal
  /-- Raised by `exec` for a command that has no meaning in the model yet. No arm raises it: all eight commands have
  their meaning. Safe. -/
  | notModelled (mnemonic : String)
deriving DecidableEq, Repr

/-- The state after reset (R40, R240): every register 0, no command pending, every DMEM element unwritten. The model's
own fields start empty, false and 0 (logs 1 to 4). -/
def State.reset : State where
  irqEn := false
  busy := false
  done := false
  errs := false
  dqsat := false
  errCode := 0#4
  cmdLast := 0#32
  scale := 0#32
  shift := 0#32
  add := 0#32
  dst := 0#32
  src := 0#32
  len := 0#32
  nzcnt := 0#32
  row0 := 0#64
  row1 := 0#64
  row2 := 0#64
  row3 := 0#64
  dmem := []
  rst := false
  pending := []
  replies := []
  pollsLeft := 0
  accepted := 0
  memReads := 0

end Sys2Proof.Machine
end

