-- ==== Sys2Proof/Machine/Ops.lean ====
section
/-! DEFINITION. The named operations over DMEM and over the command life cycle: reading and writing bytes and elements
(spec/20_memory.md), acceptance, completion, and the error completion that is QSCAN's one way to report an exception
(spec/44_control.md, spec/60_exceptions.md). -/

namespace Sys2Proof.Machine

/-! ## DMEM -/

/-- The byte at a window offset; `none` where nothing has written it since reset (R41, R69). -/
def Memory.byte : Memory → Nat → Option Byte
  | [], _ => none
  | (k, v) :: rest, a => if k = a then some v else Memory.byte rest a

/-- Write one byte, keeping the offsets strictly rising. -/
def Memory.setByte : Memory → Nat → Byte → Memory
  | [], a, v => [(a, v)]
  | (k, u) :: rest, a, v =>
    if a < k then (a, v) :: (k, u) :: rest
    else if a = k then (a, v) :: rest
    else (k, u) :: Memory.setByte rest a v

/-- The canonical form: offsets strictly rising. No entry can equal what an unlisted offset reads as, since that is no
value at all. -/
def Memory.wf : Memory → Bool
  | [] => true
  | [_] => true
  | (k, _) :: (k', v') :: rest => decide (k < k') && Memory.wf ((k', v') :: rest)

/-- DMEM_WORDS, the number of elements (R60). -/
abbrev dmemWords : Nat := 8192

/-- The window offset of element `a`'s low byte (R63). -/
def loOffset (a : Nat) : Nat := 0x4000 + 2 * a

/-- The window offset of element `a`'s high byte (R63). -/
def hiOffset (a : Nat) : Nat := 0x4000 + 2 * a + 1

/-- Element `a` as DMEM holds it, little-endian: `{byte(2a+1), byte(2a)}` (R66); `none` where it is unwritten. -/
def Memory.elem (m : Memory) (a : Nat) : Option Elem :=
  match m.byte (hiOffset a), m.byte (loOffset a) with
  | some hi, some lo => some (hi ++ lo)
  | _, _ => none

/-- `MemWrite(a, 1, v)` (R9) of a 16-bit pattern, little-endian (R66). -/
def Memory.setElem (m : Memory) (a : Nat) (v : Elem) : Memory :=
  (m.setByte (loOffset a) (v.extractLsb' 0 8)).setByte (hiOffset a) (v.extractLsb' 8 8)

/-- `for i in 0..n-1: MemWrite(addr i, 1, val i)`, in increasing order. -/
def Memory.storeElems (m : Memory) (addr : Nat → Nat) (val : Nat → Elem) : Nat → Memory
  | 0 => m
  | n + 1 => (Memory.storeElems m addr val n).setElem (addr n) (val n)

/-- `MemRead(a, 1)` (R9) as the `k`-th read of one event: the element, or where nothing has written it since reset an
arbitrary value of its own for this read (R69, U3; log 1). It reads the state before the event's writes (R78). -/
def State.readElem (s : State) (k a : Nat) : Elem :=
  (s.dmem.elem a).getD (Config.unwrittenElem (s.memReads + k))

/-! ## Command errors and completion -/

/-- The command errors (R200). -/
inductive CmdError
  | illegal
  | len
  | shift
  | param
  | stride
  | range
deriving DecidableEq, Repr

/-- The code an error reports in STATUS.ERR_CODE (R200). -/
def CmdError.code : CmdError → BitVec 4
  | .illegal => 1#4
  | .len => 2#4
  | .shift => 3#4
  | .param => 4#4
  | .stride => 5#4
  | .range => 6#4

/-- Error completion (R210, R10): QSCAN's exception entry. It "only updates STATUS" (R218): no mode changes, nothing is
saved, no control is transferred. -/
def errorComplete (e : CmdError) (s : State) : State :=
  { s with errCode := e.code, errs := true, busy := false, done := true }

/-- Acknowledgement (R219), beside it: QSCAN has no return from an exception. A host write of `w` to STATUS clears DONE,
ERRS and DQSAT where `w` has a 1 (R25). -/
def acknowledge (w : Word) (s : State) : State :=
  { s with
    done := s.done && !w.getLsbD 1
    errs := s.errs && !w.getLsbD 2
    dqsat := s.dqsat && !w.getLsbD 3 }

/-- Completion without error (R191, R192). -/
def complete (s : State) : State :=
  { s with errCode := 0#4, busy := false, done := true }

/-- The end of every command (R191): the error completion where a check fails, else the command's effect and its
completion, in one atomic step. -/
def runCommand (verdict : Option CmdError) (effect : State → State) (s : State) :
    Host.Outcome State Fault Refusal :=
  match verdict with
  | some e => .next (errorComplete e s)
  | none => .next (complete (effect s))

/-- Acceptance of the command word `w` (R190). The number of host accesses that go before its execution is open
(R72; log 2). -/
def accept (w : Word) (s : State) : State :=
  { s with
    cmdLast := w
    busy := true
    done := false
    errCode := 0#4
    pollsLeft := Config.pollsBeforeCompletion s.accepted
    accepted := s.accepted + 1 }

end Sys2Proof.Machine
end

