-- ==== Sys2Proof/Machine/Operands.lean ====
section
/-! DEFINITION. Operands: how a command reads its registers (spec/30_encoding.md R85), the addressing modes
(spec/20_memory.md R61, spec/42_scanner.md R143), the packed rows (spec/10_state.md R34) and the scan tables
(spec/42_scanner.md R140 to R142). -/

namespace Sys2Proof.Machine

/-! ## Operand registers (R85) -/

/-- N = zext_32(x[LEN]) (R32). -/
abbrev State.lenVal (s : State) : Nat := s.len.toNat

/-- zext_32(x[DST]) (R30). -/
abbrev State.dstVal (s : State) : Nat := s.dst.toNat

/-- zext_32(x[SRC]) (R31). -/
abbrev State.srcVal (s : State) : Nat := s.src.toNat

/-- zext_32(x[SCALE]) (R27). -/
abbrev State.scaleVal (s : State) : Nat := s.scale.toNat

/-- zext_32(x[SHIFT]) (R28). -/
abbrev State.shiftVal (s : State) : Nat := s.shift.toNat

/-- sext_32(x[ADD]) (R29). -/
abbrev State.addVal (s : State) : Int := s.add.toInt

/-! ## Addressing modes -/

/-- The linear mode: element `i` from base `b` (R61). -/
def linearAddr (b i : Nat) : Nat := b + i

/-- The strided mode: `A(B, s, p) = B + ((p >> 2) << s) + (p AND 3)` (R143). -/
def stridedAddr (b slog2 p : Nat) : Nat := b + ((p >>> 2) <<< slog2) + (p &&& 3)

/-- ROWr (R34). -/
def State.row (s : State) (r : Nat) : Row :=
  match r with
  | 0 => s.row0
  | 1 => s.row1
  | 2 => s.row2
  | _ => s.row3

/-- The packed-row mode: raster position `p` is row `p >> 2`, column `c = p AND 3`, lane `ROWr[16c+15:16c]` (R34, R143). -/
def State.rowLane (s : State) (p : Nat) : Elem :=
  (s.row (p >>> 2)).extractLsb' (16 * (p &&& 3)) 16

/-! ## Scan tables -/

/-- A scan table: `t k` is the raster position of the `k`-th coefficient in scan order (R140). -/
abbrev ScanTable := Fin 16 → Fin 16

/-- SCAN_XY of R141. Its values come from general knowledge (G1); used only where a claim or a test names it. -/
def defaultXY : ScanTable := ![0, 1, 4, 8, 5, 2, 3, 6, 9, 12, 13, 10, 7, 11, 14, 15]

/-- SCAN_YX of R141 (G1). -/
def defaultYX : ScanTable := ![0, 4, 1, 2, 5, 8, 12, 9, 6, 3, 7, 10, 13, 14, 11, 15]

/-- The default tables of R141. -/
def defaultTable : ScanOrder → ScanTable
  | .xy => defaultXY
  | .yx => defaultYX

/-- What R140 requires of the tables, and all that may be assumed of them: each reaches every position (so, on sixteen
positions, is a bijection), and the two differ. -/
abbrev TablesLegal (t : ScanOrder → ScanTable) : Prop :=
  (∀ p : Fin 16, ∃ k : Fin 16, t .xy k = p) ∧ (∀ p : Fin 16, ∃ k : Fin 16, t .yx k = p) ∧ t .xy ≠ t .yx

/-- The scan table of an order (R140, R142): the open parameter, known only to be legal. Every legal pair of tables is
the value of this definition for some value of `Config.rawScanTable`; the defaults stand in for no other purpose than
to keep it legal (log 5). -/
def scanTable (o : ScanOrder) : ScanTable :=
  if TablesLegal Config.rawScanTable then Config.rawScanTable o else defaultTable o

/-- `SCAN[k]` for k = 0..15 as a number. -/
def scanPos (t : ScanTable) (k : Nat) : Nat := (t (Fin.ofNat 16 k)).val

end Sys2Proof.Machine
end

