-- ==== Sys2Proof/Machine/Flags.lean ====
section
/-! DEFINITION. The flags of QSCAN (spec/10_state.md R23, R24, R33, R36, R39): the CTRL and STATUS words, the interrupt
output, the significance count and the saturation flag. -/

namespace Sys2Proof.Machine

/-- The value a read of CTRL returns: IRQ_EN in bit 0, every other bit 0 (R23). -/
def State.ctrlWord (s : State) : Word := 0#31 ++ BitVec.ofBool s.irqEn

/-- The value a read of STATUS returns: BUSY 0, DONE 1, ERRS 2, DQSAT 3, ERR_CODE 11:8, every other bit 0 (R24). -/
def State.statusWord (s : State) : Word :=
  0#20 ++ s.errCode ++ 0#4 ++ BitVec.ofBool s.dqsat ++ BitVec.ofBool s.errs ++ BitVec.ofBool s.done
    ++ BitVec.ofBool s.busy

/-- The interrupt output: `irq = CTRL.IRQ_EN AND STATUS.DONE` (R39, R215). -/
def State.irq (s : State) : Bool := s.irqEn && s.done

/-- The significance count: how many of the `n` elements written are nonzero (R33, R104, R173). -/
def nonzeroCount (n : Nat) (val : Nat → Elem) : Nat :=
  (List.range n).countP fun i => val i != 0#16

/-- Whether the clamp changed one of the `n` values (R121). -/
def anyClamped (n : Nat) (val : Nat → Int) : Bool :=
  (List.range n).any fun i => sat16 (val i) != val i

end Sys2Proof.Machine
end

