-- ==== Sys2Proof/Machine/Bus.lean ====
section
/-! DEFINITION. The bus slave port: the register map, the DMEM window and host accesses (spec/10_state.md R22 to R35,
spec/20_memory.md R62 to R74). -/

namespace Sys2Proof.Machine

/-- The control registers by name (R22). -/
inductive Reg
  | ctrl
  | status
  | cmd
  | scale
  | shift
  | add
  | dst
  | src
  | len
  | nzcnt
  /-- ROWr_LO -/
  | rowLo (r : Fin 4)
  /-- ROWr_HI -/
  | rowHi (r : Fin 4)
deriving DecidableEq, Repr

/-- The register map of R22: offset and register. -/
def registerMap : List (Nat × Reg) :=
  [ (0x0000, .ctrl), (0x0004, .status), (0x0008, .cmd), (0x000C, .scale), (0x0010, .shift), (0x0014, .add),
    (0x0018, .dst), (0x001C, .src), (0x0020, .len), (0x0024, .nzcnt),
    (0x0040, .rowLo 0), (0x0044, .rowHi 0), (0x0048, .rowLo 1), (0x004C, .rowHi 1),
    (0x0050, .rowLo 2), (0x0054, .rowHi 2), (0x0058, .rowLo 3), (0x005C, .rowHi 3) ]

/-- What an aligned offset of the window reaches (R62). -/
inductive Target
  /-- A register of R22. -/
  | reg (r : Reg)
  /-- A reserved offset (R35). -/
  | reserved
  /-- The DMEM word holding elements 2k and 2k+1 (R63). -/
  | dmem (k : Nat)
deriving DecidableEq, Repr

/-- The decoding of a bus offset (R62, R22, R35, R63). -/
def targetOf (off : BusOffset) : Target :=
  if off.toNat < 0x4000 then
    match registerMap.lookup off.toNat with
    | some r => .reg r
    | none => .reserved
  else .dmem ((off.toNat - 0x4000) / 4)

/-- The "stalls while BUSY" column of R22, and R35 and R194 for the rest of the window. -/
def Target.stalls : Target → Bool
  | .reg .ctrl => false
  | .reg .status => false
  | .reg _ => true
  | .reserved => false
  | .dmem _ => true

/-- ROWr with its low half replaced (R34). -/
def setLow (v : Row) (w : Word) : Row := v.extractLsb' 32 32 ++ w

/-- ROWr with its high half replaced (R34). -/
def setHigh (v : Row) (w : Word) : Row := w ++ v.extractLsb' 0 32

/-- Write ROWr (R34). -/
def State.setRow (s : State) (r : Nat) (v : Row) : State :=
  match r with
  | 0 => { s with row0 := v }
  | 1 => { s with row1 := v }
  | 2 => { s with row2 := v }
  | _ => { s with row3 := v }

/-- The value a read of a register returns (R23 to R34); no read has a side effect (R68). -/
def readReg (r : Reg) (s : State) : Word :=
  match r with
  | .ctrl => s.ctrlWord
  | .status => s.statusWord
  | .cmd => s.cmdLast
  | .scale => s.scale
  | .shift => s.shift
  | .add => s.add
  | .dst => s.dst
  | .src => s.src
  | .len => s.len
  | .nzcnt => s.nzcnt
  | .rowLo r => (s.row r.val).extractLsb' 0 32
  | .rowHi r => (s.row r.val).extractLsb' 32 32

/-- A write of `w` to a register (R23 to R34, R68): CTRL keeps bit 0, STATUS is W1C, CMD issues a command, NZCNT ignores
the write, the others keep all 32 bits. -/
def writeReg (r : Reg) (w : Word) (s : State) : State :=
  match r with
  | .ctrl => { s with irqEn := w.getLsbD 0 }
  | .status => acknowledge w s
  | .cmd => accept w s
  | .scale => { s with scale := w }
  | .shift => { s with shift := w }
  | .add => { s with add := w }
  | .dst => { s with dst := w }
  | .src => { s with src := w }
  | .len => { s with len := w }
  | .nzcnt => s
  | .rowLo r => s.setRow r.val (setLow (s.row r.val) w)
  | .rowHi r => s.setRow r.val (setHigh (s.row r.val) w)

/-- The value a read of the DMEM word `k` returns: `{MemRead(2k+1, 1), MemRead(2k, 1)}` (R63, R69). -/
def readDmemWord (k : Nat) (s : State) : Word := s.readElem 1 (2 * k + 1) ++ s.readElem 0 (2 * k)

/-- A write of `w` to the DMEM word `k`: both elements at one instant (R63, R67). -/
def writeDmemWord (k : Nat) (w : Word) (s : State) : State :=
  { s with
    dmem := (s.dmem.setElem (2 * k) (w.extractLsb' 0 16)).setElem (2 * k + 1) (w.extractLsb' 16 16) }

/-- The value of a read (R35: a reserved offset reads as zero). -/
def readTarget (t : Target) (s : State) : Word :=
  match t with
  | .reg r => readReg r s
  | .reserved => 0#32
  | .dmem k => readDmemWord k s

/-- How many MemReads a bus read makes: two in the DMEM window (R63), else none. -/
def Target.memReads : Target → Nat
  | .reg _ => 0
  | .reserved => 0
  | .dmem _ => 2

/-- The effect of a write (R35: a reserved offset ignores it). -/
def writeTarget (t : Target) (w : Word) (s : State) : State :=
  match t with
  | .reg r => writeReg r w s
  | .reserved => s
  | .dmem k => writeDmemWord k w s

/-- The offset of an access. -/
def BusAccess.off : BusAccess → BusOffset
  | .read off _ => off
  | .write off _ _ => off

/-- The size of an access in bytes. -/
def BusAccess.size : BusAccess → Nat
  | .read _ size => size
  | .write _ size _ => size

/-- QSCAN accepts only 32-bit accesses at offsets that are multiples of 4 (R65). -/
def BusAccess.accepted (a : BusAccess) : Bool := a.size == 4 && a.off.toNat % 4 == 0

/-- Whether QSCAN holds the access while BUSY = 1; an access it answers with a bus error is never held (R194). -/
def BusAccess.stalls (a : BusAccess) : Bool := a.accepted && (targetOf a.off).stalls

/-- The effect and the answer of an accepted access (R64, R67, R68). -/
def accessEffect (a : BusAccess) (s : State) : State :=
  match a with
  | .read off _ =>
    { s with
      replies := .data (readTarget (targetOf off) s) :: s.replies
      memReads := s.memReads + (targetOf off).memReads }
  | .write off _ w => { writeTarget (targetOf off) w s with replies := .ok :: s.replies }

/-- One host access (R64): it takes effect completely, or it is answered with a bus error, changes nothing, and the run
of the host program ends there (R65, R213, U4). -/
def hostAccess (a : BusAccess) (s : State) : Host.Outcome State Fault Refusal :=
  if a.size ≠ 4 then .fault (.busErrorSize a.size)
  else if a.off.toNat % 4 ≠ 0 then .fault (.busErrorAlignment a.off)
  else .next (accessEffect a s)

/-- The offset in the window of a bus address, for a window at `base` (QS_BASE): "An access outside the window does not
reach QSCAN" (R62). The model takes QS_BASE as an argument; the platform's value is `Config.qsBase` (log 7). -/
def windowOffset (base addr : Nat) : Option BusOffset :=
  if base ≤ addr ∧ addr < base + 0x8000 then some (BitVec.ofNat 15 (addr - base)) else none

end Sys2Proof.Machine
end

