-- ==== Sys2Proof/Machine/Checks.lean ====
section
/-! DEFINITION. The checks of a command and their order (spec/60_exceptions.md R200 to R207). -/

namespace Sys2Proof.Machine

/-- A footprint of `count` elements from `base` passes the end of DMEM: exact arithmetic, no wrap-around (R206). -/
abbrev pastEnd (base count : Nat) : Prop := base + count > dmemWords

/-- The elements from the origin of a strided CG to just past its last element: `3·2^s + 4` (R206). -/
abbrev stridedSpan (slog2 : Nat) : Nat := 3 * 2 ^ slog2 + 4

/-- QUANT and DEQUANT: LEN, SHIFT, PARAM, RANGE (R207). -/
def checkScaled (s : State) : Option CmdError :=
  if s.lenVal % 16 ≠ 0 then some .len
  else if s.shiftVal > 31 then some .shift
  else if s.scaleVal > 65535 ∨ s.add.getLsbD 31 = true then some .param
  else if pastEnd s.dstVal s.lenVal then some .range
  else none

/-- ABS and ADDSIGN: LEN, RANGE (R207). -/
def checkHelper (s : State) : Option CmdError :=
  if s.lenVal % 16 ≠ 0 then some .len
  else if pastEnd s.dstVal s.lenVal ∨ pastEnd s.srcVal s.lenVal then some .range
  else none

/-- SCANB: STRIDE, RANGE (R207). -/
def checkScanb (slog2 : Nat) (s : State) : Option CmdError :=
  if slog2 < 2 then some .stride
  else if pastEnd s.srcVal (stridedSpan slog2) ∨ pastEnd s.dstVal 16 then some .range
  else none

/-- SCANR: RANGE (R207). -/
def checkScanr (s : State) : Option CmdError :=
  if pastEnd s.dstVal 16 then some .range else none

/-- ISCANB: STRIDE, RANGE (R207). -/
def checkIscanb (slog2 : Nat) (s : State) : Option CmdError :=
  if slog2 < 2 then some .stride
  else if pastEnd s.srcVal 16 ∨ pastEnd s.dstVal (stridedSpan slog2) then some .range
  else none

/-- `check(c, state)` of R207 for a word that decodes; a word that does not is ILLEGAL before any other check. -/
def check (i : Instr) (s : State) : Option CmdError :=
  match i with
  | .nop => none
  | .quant => checkScaled s
  | .dequant => checkScaled s
  | .abs => checkHelper s
  | .addsign => checkHelper s
  | .scanb _ slog2 => checkScanb slog2 s
  | .scanr _ => checkScanr s
  | .iscanb _ slog2 => checkIscanb slog2 s

end Sys2Proof.Machine
end

