-- ==== Sys2Proof/Machine/Control.lean ====
section
/-! DEFINITION. NOP (spec/44_control.md R196). -/

namespace Sys2Proof.Machine

/-- NOP "does nothing but complete" (R196). -/
def execNop (s : State) : Host.Outcome State Fault Refusal :=
  runCommand (check .nop s) (fun t => t) s

end Sys2Proof.Machine
end

