-- ==== Sys2Proof/Machine/Dequantizer.lean ====
section
/-! DEFINITION. The dequantizer: DEQUANT (spec/41_dequantizer.md). -/

namespace Sys2Proof.Machine

/-- The exact reconstruction `v = floor_shr(l·sc + ad, sh)` (R120, R124). -/
def dequantExact (sc sh : Nat) (ad : Int) (l : Elem) : Int := floorShr (sext16 l * sc + ad) sh

/-- The exact reconstruction at index `i`, from the snapshot (R120, R78). -/
def State.dequantAt (s : State) (i : Nat) : Int :=
  dequantExact s.scaleVal s.shiftVal s.addVal (s.readElem i (linearAddr s.dstVal i))

/-- The pseudocode of DEQUANT (R120): DMEM[DST ..], and DQSAT set where an element was clamped (R121). -/
def dequantEffect (s : State) : State :=
  { s with
    dmem := s.dmem.storeElems (linearAddr s.dstVal) (fun i => trunc16 (sat16 (s.dequantAt i))) s.lenVal
    dqsat := s.dqsat || anyClamped s.lenVal s.dequantAt
    memReads := s.memReads + s.lenVal }

/-- DEQUANT (R120). -/
def execDequant (s : State) : Host.Outcome State Fault Refusal :=
  runCommand (check .dequant s) dequantEffect s

end Sys2Proof.Machine
end

