-- ==== Sys2Proof/Machine/Quantizer.lean ====
section
/-! DEFINITION. The quantizer: QUANT (spec/40_quantizer.md). -/

namespace Sys2Proof.Machine

/-- The rounded magnitude `m = floor_shr(abs(c)·sc + ad, sh)`, computed exactly (R100, R101). -/
def quantMagnitude (sc sh : Nat) (ad c : Int) : Int := floorShr (absOf c * sc + ad) sh

/-- The level of one element: `sat16(sign(c)·m)` (R100, R102). -/
def quantLevel (sc sh : Nat) (ad : Int) (c : Elem) : Elem :=
  trunc16 (sat16 (signOf (sext16 c) * quantMagnitude sc sh ad (sext16 c)))

/-- The level that QUANT writes at index `i`, from the snapshot (R100, R78). -/
def State.quantAt (s : State) (i : Nat) : Elem :=
  quantLevel s.scaleVal s.shiftVal s.addVal (s.readElem i (linearAddr s.dstVal i))

/-- The pseudocode of QUANT (R100): DMEM[DST ..] and NZCNT. -/
def quantEffect (s : State) : State :=
  { s with
    dmem := s.dmem.storeElems (linearAddr s.dstVal) s.quantAt s.lenVal
    nzcnt := BitVec.ofNat 32 (nonzeroCount s.lenVal s.quantAt)
    memReads := s.memReads + s.lenVal }

/-- QUANT (R100). -/
def execQuant (s : State) : Host.Outcome State Fault Refusal :=
  runCommand (check .quant s) quantEffect s

end Sys2Proof.Machine
end

