-- ==== Sys2Proof/Machine/Scanner.lean ====
section
/-! DEFINITION. The coefficient scanner: SCANB, SCANR and ISCANB (spec/42_scanner.md). Each effect takes the scan table
as an argument; the commands give it the table of their order (R142). -/

namespace Sys2Proof.Machine

/-- The pseudocode of SCANB (R144) with table `t`: DMEM[DST .. DST+15]. -/
def scanbEffect (t : ScanTable) (slog2 : Nat) (s : State) : State :=
  { s with
    dmem := s.dmem.storeElems (linearAddr s.dstVal)
      (fun k => s.readElem (scanPos t k) (stridedAddr s.srcVal slog2 (scanPos t k))) 16
    memReads := s.memReads + 16 }

/-- SCANB (R144). -/
def execScanb (ord : ScanOrder) (slog2 : Nat) (s : State) : Host.Outcome State Fault Refusal :=
  runCommand (check (.scanb ord slog2) s) (scanbEffect (scanTable ord) slog2) s

/-- The pseudocode of SCANR (R146) with table `t`: DMEM[DST .. DST+15]. It reads no DMEM (R147). -/
def scanrEffect (t : ScanTable) (s : State) : State :=
  { s with
    dmem := s.dmem.storeElems (linearAddr s.dstVal) (fun k => s.rowLane (scanPos t k)) 16 }

/-- SCANR (R146). -/
def execScanr (ord : ScanOrder) (s : State) : Host.Outcome State Fault Refusal :=
  runCommand (check (.scanr ord) s) (scanrEffect (scanTable ord)) s

/-- The pseudocode of ISCANB (R148) with table `t`: the strided CG at DST. -/
def iscanbEffect (t : ScanTable) (slog2 : Nat) (s : State) : State :=
  { s with
    dmem := s.dmem.storeElems (fun k => stridedAddr s.dstVal slog2 (scanPos t k))
      (fun k => s.readElem k (linearAddr s.srcVal k)) 16
    memReads := s.memReads + 16 }

/-- ISCANB (R148). -/
def execIscanb (ord : ScanOrder) (slog2 : Nat) (s : State) : Host.Outcome State Fault Refusal :=
  runCommand (check (.iscanb ord slog2) s) (iscanbEffect (scanTable ord) slog2) s

end Sys2Proof.Machine
end

