-- ==== Sys2Proof/Machine/SignMag.lean ====
section
/-! DEFINITION. The sign/magnitude separator: ABS and ADDSIGN (spec/43_signmag.md). -/

namespace Sys2Proof.Machine

/-- The magnitude that ABS writes at index `i`, from the snapshot (R170, R171). -/
def State.absAt (s : State) (i : Nat) : Elem :=
  trunc16 (absSat16 (sext16 (s.readElem i (linearAddr s.srcVal i))))

/-- The pseudocode of ABS (R170): DMEM[DST ..]. -/
def absEffect (s : State) : State :=
  { s with
    dmem := s.dmem.storeElems (linearAddr s.dstVal) s.absAt s.lenVal
    memReads := s.memReads + s.lenVal }

/-- ABS (R170). -/
def execAbs (s : State) : Host.Outcome State Fault Refusal :=
  runCommand (check .abs s) absEffect s

/-- `sat16(sign(sg)·a)` (R172, R173). -/
def signedMagnitude (sg a : Elem) : Elem := trunc16 (sat16 (signOf (sext16 sg) * sext16 a))

/-- The result that ADDSIGN writes at index `i`, from the snapshot: the sign source at DST is read `2i`-th, the
magnitude at SRC `2i+1`-th, as the loop of R172 reads them. -/
def State.addsignAt (s : State) (i : Nat) : Elem :=
  signedMagnitude (s.readElem (2 * i) (linearAddr s.dstVal i)) (s.readElem (2 * i + 1) (linearAddr s.srcVal i))

/-- The pseudocode of ADDSIGN (R172): DMEM[DST ..] and NZCNT. -/
def addsignEffect (s : State) : State :=
  { s with
    dmem := s.dmem.storeElems (linearAddr s.dstVal) s.addsignAt s.lenVal
    nzcnt := BitVec.ofNat 32 (nonzeroCount s.lenVal s.addsignAt)
    memReads := s.memReads + 2 * s.lenVal }

/-- ADDSIGN (R172). -/
def execAddsign (s : State) : Host.Outcome State Fault Refusal :=
  runCommand (check .addsign s) addsignEffect s

end Sys2Proof.Machine
end

