-- ==== Sys2Proof/Machine/Dispatch.lean ====
section
/-! DEFINITION. One arm per command: `execute(decode(w))` with its checks and completion (spec/44_control.md R191). -/

namespace Sys2Proof.Machine

def exec (i : Instr) (s : State) : Host.Outcome State Fault Refusal :=
  match i with
  | .nop => Sys2Proof.Machine.execNop s
  | .quant => Sys2Proof.Machine.execQuant s
  | .dequant => Sys2Proof.Machine.execDequant s
  | .abs => Sys2Proof.Machine.execAbs s
  | .addsign => Sys2Proof.Machine.execAddsign s
  | .scanb ord slog2 => Sys2Proof.Machine.execScanb ord slog2 s
  | .scanr ord => Sys2Proof.Machine.execScanr ord s
  | .iscanb ord slog2 => Sys2Proof.Machine.execIscanb ord slog2 s

end Sys2Proof.Machine
end

