-- ==== Sys2Proof/Machine/Engine.lean ====
section
/-! DEFINITION. Who moves next: the engine's step, the host's step, the reset event (spec/44_control.md R190 to R194,
spec/20_memory.md R64, R72, spec/70_reset_and_hazards.md R240, R241). -/

namespace Sys2Proof.Machine

/-- The engine's step (R191): it executes the pending command word, and a word that does not decode completes with error
ILLEGAL (R84, R201). -/
def engineStep (s : State) : Host.Outcome State Fault Refusal :=
  match Sys2Proof.decode s.cmdLast with
  | .ok i => exec i s
  | .error _ => .next (errorComplete .illegal s)

/-- The oldest unanswered host access is held by a stall (R194). -/
def State.held (s : State) : Bool :=
  match s.pending with
  | [] => false
  | a :: _ => s.busy && a.stalls

/-- The reset event (R240): every field of the spec's state at its reset value, whatever was in progress. A pending
command is abandoned, and a host access that was stalled gets no response (R241): the accesses it holds behind it then
never reach QSCAN (U8; log 4). The counters that index free values go on. -/
def resetEvent (s : State) : State :=
  { State.reset with
    pending := if s.held then [] else s.pending
    replies := s.replies
    accepted := s.accepted
    memReads := s.memReads }

/-- The host's step: its oldest access (R64). `rest` are the accesses behind it. -/
def hostStep (a : BusAccess) (rest : List BusAccess) (s : State) : Host.Outcome State Fault Refusal :=
  hostAccess a { s with pending := rest, pollsLeft := s.pollsLeft - 1 }

/-- While BUSY = 1, the engine moves when the host has no access to make, when the host's access is held (R194), or when
no more accesses go before this command's completion (R72, U6); otherwise the host moves. -/
def busyStep (s : State) : Host.Outcome State Fault Refusal :=
  match s.pending with
  | [] => engineStep s
  | a :: rest => if a.stalls ∨ s.pollsLeft = 0 then engineStep s else hostStep a rest s

/-- While BUSY = 0 the engine has no step (R191), and QSCAN does nothing until the next host access (R229). -/
def idleStep (s : State) : Host.Outcome State Fault Refusal :=
  match s.pending with
  | [] => .next s
  | a :: rest => hostStep a rest s

/-- One event of the total order of R72; reset takes precedence over everything (R217, R240). The spec names no moment at
which `rst` is asserted, so any is possible. That no event of the model raises `rst`, and that it is an input sampled before
each event instead (`State.sample`, `runInputs`), is the model's choice (log 4): a plain run holds a reset as its first event
or not at all, and a run over inputs holds one wherever its inputs do. -/
def eventStep (s : State) : Host.Outcome State Fault Refusal :=
  if s.rst then .next (resetEvent s) else if s.busy then busyStep s else idleStep s

/-- The command word `w` accepted and about to be executed: what a host write of `w` to CMD leaves (R190), with no host
access before the engine's step and reset not asserted (log 8). -/
def issued (w : Word) (s : State) : State :=
  { s with cmdLast := w, busy := true, done := false, errCode := 0#4, pollsLeft := 0, rst := false }

end Sys2Proof.Machine
end

