-- ==== Sys2Proof/Machine/Step.lean ====
section
/-! DEFINITION. The step of the machine, and how a command is put where the next step takes it. -/

namespace Sys2Proof.Machine

/-- One step: one event of the total order of R72. -/
def step (s : State) : Host.Outcome State Fault Refusal := eventStep s

/-- `s` with the command whose bits are `w` accepted, so that the very next step executes it (R38, R190; log 8). -/
def State.withFetchWord (s : State) (nbits w : Nat) : State := issued (Sys2Proof.tableWord nbits w) s

end Sys2Proof.Machine
end

