-- ==== Sys2Proof/Machine/Inputs.lean ====
section
/-! DEFINITION. The reset input over time: a run in which `rst` may be asserted at any moment
(spec/70_reset_and_hazards.md R240, R241; log 4). -/

namespace Sys2Proof.Machine

/-- The level of the reset input before a step: asserted where `r` is true (R240). A level not yet sampled stays. -/
def State.sample (r : Bool) (s : State) : State := { s with rst := s.rst || r }

/-- One event with the level `r` on the reset input (R240). -/
def stepInput (r : Bool) (s : State) : Host.Outcome State Fault Refusal := step (s.sample r)

/-- A run whose events find the levels `rs` on the reset input, one each. Resets are free: any list is possible (log 4). -/
def runInputs : List Bool → State → Host.Outcome State Fault Refusal
  | [], s => .next s
  | r :: rs, s =>
    match stepInput r s with
    | .next t => runInputs rs t
    | .fault e => .fault e
    | .refused e => .refused e

end Sys2Proof.Machine
end

