-- ==== Sys2Proof/Machine/HostProgram.lean ====
section
/-! DEFINITION. The host's notation (spec/30_encoding.md R95, R96): programs of bus operations over the device. The
host's control flow is the host's own (R195); this layer drives `step` and adds nothing to what QSCAN does. -/

namespace Sys2Proof.Machine

/-- A host bus operation (R95). A label is the position of an operation in its program; a name is a number. -/
inductive HostOp
  /-- `wr OFF, V` -/
  | wr (off : BusOffset) (v : Word)
  /-- `rd OFF -> name` -/
  | rd (off : BusOffset) (name : Nat)
  /-- `bnz name, MASK, label` -/
  | bnz (name : Nat) (mask : Word) (label : Nat)
  /-- `b label` -/
  | b (label : Nat)
  /-- `halt` -/
  | halt
deriving DecidableEq, Repr

/-- What the host waits for before it goes on. -/
inductive Awaiting
  /-- The answer to a write. -/
  | written
  /-- The data of a read, to be named. -/
  | named (name : Nat)
deriving DecidableEq, Repr

/-- The operation's offset, where it has one, is a multiple of 4, so that QSCAN accepts its access (R65). -/
def HostOp.aligned : HostOp → Bool
  | .wr off _ => off.toNat % 4 == 0
  | .rd off _ => off.toNat % 4 == 0
  | .bnz _ _ _ => true
  | .b _ => true
  | .halt => true

/-- A host program on its way: its text, its position, the values it has named (newest first), the access it waits for,
and the device. -/
structure HostRun where
  program : List HostOp
  pos : Nat
  names : List (Nat × Word)
  awaiting : Option Awaiting
  device : State
deriving DecidableEq, Repr

/-- The value a name stands for; before any `rd` has named it the spec gives none (log 9). -/
def HostRun.value (h : HostRun) (name : Nat) : Word :=
  (h.names.lookup name).getD (Config.unreadName name)

/-- The host gives one access to the bus port and waits for its answer (R64). -/
def HostRun.request (h : HostRun) (a : BusAccess) (w : Awaiting) : HostRun :=
  { h with awaiting := some w, device := { h.device with pending := [a], replies := [] } }

/-- The answer arrives: a read's value gets its name, and the host goes on to its next operation. -/
def HostRun.deliver (h : HostRun) (w : Awaiting) (r : Reply) : HostRun :=
  match w, r with
  | .named name, .data v => { h with awaiting := none, pos := h.pos + 1, names := (name, v) :: h.names }
  | _, _ => { h with awaiting := none, pos := h.pos + 1 }

/-- The device takes one step. -/
def HostRun.deviceStep (h : HostRun) : Host.Outcome HostRun Fault Refusal :=
  match step h.device with
  | .next d => .next { h with device := d }
  | .fault r => .fault r
  | .refused r => .refused r

/-- The host branches to `target`. QSCAN does not see that (R195), and it does not keep the engine from its step: a pending
command executes before the branch when nothing more goes before it, and the branch counts as one of the things that may go
before it otherwise. So a host that only branches does not hold up a command (R191, R252; log 2). -/
def HostRun.branch (h : HostRun) (target : Nat) : Host.Outcome HostRun Fault Refusal :=
  if h.device.busy ∧ h.device.pollsLeft = 0 then h.deviceStep
  else .next { h with pos := target, device := { h.device with pollsLeft := h.device.pollsLeft - 1 } }

/-- What the host does next when the device is not being reset. While it waits for an answer, and after `halt`, the device
moves. -/
def HostRun.operate (h : HostRun) : Host.Outcome HostRun Fault Refusal :=
  match h.awaiting with
  | some w =>
    match h.device.replies with
    | r :: _ => .next (h.deliver w r)
    | [] => h.deviceStep
  | none =>
    match h.program[h.pos]? with
    | none => h.deviceStep
    | some .halt => h.deviceStep
    | some (.wr off v) => .next (h.request (.write off 4 v) .written)
    | some (.rd off name) => .next (h.request (.read off 4) (.named name))
    | some (.bnz name mask label) =>
      h.branch (if (h.value name &&& mask) ≠ 0#32 then label else h.pos + 1)
    | some (.b label) => h.branch label

/-- One step of a host program with its device (R95). The reset event goes before everything (R240). -/
def HostRun.step (h : HostRun) : Host.Outcome HostRun Fault Refusal :=
  if h.device.rst then h.deviceStep else h.operate

/-- `n` steps of a host program with its device, stopping at a bus error (R213). -/
def HostRun.run : Nat → HostRun → Host.Outcome HostRun Fault Refusal
  | 0, h => .next h
  | n + 1, h =>
    match h.step with
    | .next h' => HostRun.run n h'
    | .fault r => .fault r
    | .refused r => .refused r

/-- A run of a host program in which the reset input has the levels `rs`, one before each step (R240; log 4). -/
def HostRun.runInputs : List Bool → HostRun → Host.Outcome HostRun Fault Refusal
  | [], h => .next h
  | r :: rs, h =>
    match HostRun.step { h with device := h.device.sample r } with
    | .next h' => HostRun.runInputs rs h'
    | .fault e => .fault e
    | .refused e => .refused e

/-! ## The pseudo-operations of R96 -/

/-- `issue CMDTEXT` -/
def issueOp (i : Instr) : List HostOp := [.wr 0x0008#15 (Sys2Proof.encode i)]

/-- `setq SC, SH, AD` -/
def setqOps (sc sh ad : Word) : List HostOp := [.wr 0x000C#15 sc, .wr 0x0010#15 sh, .wr 0x0014#15 ad]

/-- `setop D, S, N` -/
def setopOps (d s n : Word) : List HostOp := [.wr 0x0018#15 d, .wr 0x001C#15 s, .wr 0x0020#15 n]

/-- `wait`, standing at position `at0` of its program and naming the value it polls `st`: poll until BUSY = 0. -/
def waitOps (st at0 : Nat) : List HostOp := [.rd 0x0004#15 st, .bnz st 0x1#32 at0]

/-- `ack`: clear DONE, ERRS and DQSAT. -/
def ackOps : List HostOp := [.wr 0x0004#15 0x0000000E#32]

/-- `wrel A, E1, E0` for an even element address A. -/
def wrelOps (a : Nat) (e1 e0 : Elem) : List HostOp := [.wr (BitVec.ofNat 15 (0x4000 + 2 * a)) (e1 ++ e0)]

end Sys2Proof.Machine
end

