-- ==== Sys2Proof/Safety.lean ====
section
/-! DEFINITION. What counts as a good state and a safe run of QSCAN, and the terms that statements are made in: who moves
next, which operands are legal, what a command reads and writes. -/

namespace Sys2Proof.Machine

/-! ## The invariant -/

/-- What every step keeps, from any state that meets it. -/
structure StateInv (s : State) : Prop where
  /-- DMEM is in its canonical form. -/
  memWf : s.dmem.wf = true
  /-- Every listed byte lies in the DMEM window (R62, R63). -/
  memInWindow : ∀ c ∈ s.dmem, 0x4000 ≤ c.1 ∧ c.1 < 0x8000
  /-- Elements are written whole: both bytes or neither (R67). -/
  memPaired : ∀ a, (s.dmem.byte (loOffset a)).isSome = (s.dmem.byte (hiOffset a)).isSome
  /-- "Its value is between 0 and 8192" (R33). -/
  countBound : s.nzcnt.toNat ≤ 8192
  /-- "Codes 7 to 15 are never produced" (R200). -/
  codeBound : s.errCode.toNat ≤ 6
  /-- "While BUSY = 1, DONE is already 0" (R25), and acceptance has cleared ERR_CODE (R190). -/
  busyCleared : s.busy = true → s.done = false ∧ s.errCode = 0#4

/-! ## Who moves next -/

/-- The engine executes the pending command in the next step (R191, R194, R72). -/
def EngineMoves (s : State) : Prop :=
  s.rst = false ∧ s.busy = true ∧
    (s.pending = [] ∨ (∃ a rest, s.pending = a :: rest ∧ a.stalls = true) ∨ s.pollsLeft = 0)

/-- The host makes the access `a` in the next step, with the accesses `rest` behind it (R64, R194, R72). -/
def HostMoves (s : State) (a : BusAccess) (rest : List BusAccess) : Prop :=
  s.rst = false ∧ s.pending = a :: rest ∧ (s.busy = false ∨ (a.stalls = false ∧ 0 < s.pollsLeft))

/-- The state in which the host's access takes effect: the access has left the list. -/
def State.withRest (s : State) (rest : List BusAccess) : State :=
  { s with pending := rest, pollsLeft := s.pollsLeft - 1 }

/-! ## Legal operands -/

/-- The conditions under which QUANT and DEQUANT complete without error (R202 to R204, R206). -/
abbrev ScaledLegal (s : State) : Prop :=
  s.len.toNat % 16 = 0 ∧ s.shift.toNat ≤ 31 ∧ s.scale.toNat ≤ 65535 ∧ s.add.toNat < 2 ^ 31 ∧
    s.dst.toNat + s.len.toNat ≤ 8192

/-- The conditions under which ABS and ADDSIGN complete without error (R202, R206). -/
abbrev HelperLegal (s : State) : Prop :=
  s.len.toNat % 16 = 0 ∧ s.dst.toNat + s.len.toNat ≤ 8192 ∧ s.src.toNat + s.len.toNat ≤ 8192

/-- The conditions under which SCANB completes without error (R205, R206). -/
abbrev ScanbLegal (slog2 : Nat) (s : State) : Prop :=
  2 ≤ slog2 ∧ s.src.toNat + 3 * 2 ^ slog2 + 4 ≤ 8192 ∧ s.dst.toNat + 16 ≤ 8192

/-- The condition under which SCANR completes without error (R206). -/
abbrev ScanrLegal (s : State) : Prop := s.dst.toNat + 16 ≤ 8192

/-- The conditions under which ISCANB completes without error (R205, R206). -/
abbrev IscanbLegal (slog2 : Nat) (s : State) : Prop :=
  2 ≤ slog2 ∧ s.src.toNat + 16 ≤ 8192 ∧ s.dst.toNat + 3 * 2 ^ slog2 + 4 ≤ 8192

/-- Condition `code` of R200 holds of the pending word in state `s` (R201 to R206), whatever other conditions hold. -/
def Fails (s : State) (code : Nat) : Prop :=
  match Sys2Proof.decode s.cmdLast, code with
  | .error _, 1 => True
  | .ok .quant, 2 | .ok .dequant, 2 | .ok .abs, 2 | .ok .addsign, 2 => s.len.toNat % 16 ≠ 0
  | .ok .quant, 3 | .ok .dequant, 3 => 31 < s.shift.toNat
  | .ok .quant, 4 | .ok .dequant, 4 => 65535 < s.scale.toNat ∨ 2 ^ 31 ≤ s.add.toNat
  | .ok (.scanb _ slog2), 5 => slog2 < 2
  | .ok (.iscanb _ slog2), 5 => slog2 < 2
  | .ok .quant, 6 | .ok .dequant, 6 => 8192 < s.dst.toNat + s.len.toNat
  | .ok .abs, 6 | .ok .addsign, 6 => 8192 < s.dst.toNat + s.len.toNat ∨ 8192 < s.src.toNat + s.len.toNat
  | .ok (.scanb _ slog2), 6 => 8192 < s.src.toNat + 3 * 2 ^ slog2 + 4 ∨ 8192 < s.dst.toNat + 16
  | .ok (.scanr _), 6 => 8192 < s.dst.toNat + 16
  | .ok (.iscanb _ slog2), 6 => 8192 < s.src.toNat + 16 ∨ 8192 < s.dst.toNat + 3 * 2 ^ slog2 + 4
  | _, _ => False

/-! ## What a command reads and writes -/

/-- The element addresses a command reads (R61). -/
def commandReads (i : Instr) (s : State) : List Nat :=
  match i with
  | .nop => []
  | .quant => (List.range s.lenVal).map (linearAddr s.dstVal)
  | .dequant => (List.range s.lenVal).map (linearAddr s.dstVal)
  | .abs => (List.range s.lenVal).map (linearAddr s.srcVal)
  | .addsign => (List.range s.lenVal).map (linearAddr s.dstVal) ++ (List.range s.lenVal).map (linearAddr s.srcVal)
  | .scanb _ slog2 => (List.range 16).map (stridedAddr s.srcVal slog2)
  | .scanr _ => []
  | .iscanb _ _ => (List.range 16).map (linearAddr s.srcVal)

/-- The element addresses a command writes when it completes without error (R61). -/
def commandWrites (i : Instr) (s : State) : List Nat :=
  match i with
  | .nop => []
  | .quant => (List.range s.lenVal).map (linearAddr s.dstVal)
  | .dequant => (List.range s.lenVal).map (linearAddr s.dstVal)
  | .abs => (List.range s.lenVal).map (linearAddr s.dstVal)
  | .addsign => (List.range s.lenVal).map (linearAddr s.dstVal)
  | .scanb _ _ => (List.range 16).map (linearAddr s.dstVal)
  | .scanr _ => (List.range 16).map (linearAddr s.dstVal)
  | .iscanb _ slog2 => (List.range 16).map (stridedAddr s.dstVal slog2)

/-- `c` is what `n` reads at `addr` may give (R69, U3): the element where it is written, any value where it is not. -/
def Snapshot (m : Memory) (n : Nat) (addr : Nat → Nat) (c : Nat → Elem) : Prop :=
  ∀ i < n, ∀ e, m.elem (addr i) = some e → c i = e

/-- From `m` to `m'`, exactly the `n` elements at `addr` are written, with the values `val`: each reads back, and every
byte of no such element reads as before. -/
def StoresExactly (m m' : Memory) (n : Nat) (addr : Nat → Nat) (val : Nat → Elem) : Prop :=
  (∀ i < n, m'.elem (addr i) = some (val i)) ∧
    ∀ b, (∀ i < n, b ≠ loOffset (addr i) ∧ b ≠ hiOffset (addr i)) → m'.byte b = m.byte b

/-! ## The formulas of the spec in the library's operations -/

/-- The clamp of R6. -/
def clamp16 (v : Int) : Int := max (-32768) (min 32767 v)

/-- The level of R100. -/
def levelOf (sc sh : Nat) (ad : Int) (c : Int) : Int := clamp16 (c.sign * ((|c| * sc + ad) / 2 ^ sh))

/-- The unsaturated coefficient of R120. -/
def coefOf (sc sh : Nat) (ad : Int) (l : Int) : Int := (l * sc + ad) / 2 ^ sh

/-! ## Safe runs -/

/-- Every element a command reads has been written since reset: what R244 (1) asks of software before a command. -/
def OperandsWritten (i : Instr) (s : State) : Prop := ∀ a ∈ commandReads i s, (s.dmem.elem a).isSome

/-- The next step reads no unwritten element: neither the engine's command (R244 (1)) nor the host's read of a DMEM word
(R69). -/
def ReadsWritten (s : State) : Prop :=
  (EngineMoves s → ∀ i, Sys2Proof.decode s.cmdLast = .ok i → check i s = none → OperandsWritten i s) ∧
    ∀ off size rest k, HostMoves s (.read off size) rest → targetOf off = .dmem k →
      (s.dmem.elem (2 * k)).isSome ∧ (s.dmem.elem (2 * k + 1)).isSome

/-- A run of `n` steps from `s` without a bus error and without a read of an unwritten element: the obligation U3
recommends for program proofs. -/
def SafeRun : Nat → State → Prop
  | 0, _ => True
  | n + 1, s => ReadsWritten s ∧ ∃ t, step s = .next t ∧ SafeRun n t

end Sys2Proof.Machine
end

