-- ==== Sys2Proof/Certificates/Slice0/Obligations.lean ====
section
/-! DEFINITION. The statements for the provers. Each docstring names the rule or section of spec/ it rests on. -/

open Sys2Proof Sys2Proof.Machine

/-! ## Encoding (30_encoding.md) -/

/-- Decode undoes encode: every command, with every operand its fields admit. -/
def Obligations.DecodeOfEncode : Prop :=
  ∀ i : Instr, i.wellFormed = true → decode (encode i) = .ok i

/-- Encode undoes decode: a word that decodes is the encoding of the command it decodes to, so no two words are one
command and no bit of a legal word is dropped. -/
def Obligations.EncodeOfDecode : Prop :=
  ∀ (w : Word) (i : Instr), decode w = .ok i → i.wellFormed = true ∧ encode i = w

/-- R88: the opcode map by match and mask, how many legal words each row has, which words decode, and which of them end
with error STRIDE. -/
def Obligations.OpcodeMapDecodes : Prop :=
  opcodeMap.map (fun r => (r.mnemonic, r.pattern, r.mask)) =
      [("NOP", 0x00000000#32, 0xFFFFFFFF#32), ("QUANT", 0x00000001#32, 0xFFFFFFFF#32),
        ("DEQUANT", 0x00000002#32, 0xFFFFFFFF#32), ("ABS", 0x00000003#32, 0xFFFFFFFF#32),
        ("ADDSIGN", 0x00000004#32, 0xFFFFFFFF#32), ("SCANB", 0x00000005#32, 0xFFFFFF0F#32),
        ("SCANR", 0x00000006#32, 0xFFFFFFEF#32), ("ISCANB", 0x00000007#32, 0xFFFFFF0F#32)] ∧
    opcodeMap.map (fun r => (List.range 0x100).countP fun n => r.covers (BitVec.ofNat 32 n)) =
      [1, 1, 1, 1, 1, 16, 2, 16] ∧
    (∀ (w : Word) (i : Instr), decode w = .ok i →
      (opcodeMap.filter (fun r => r.covers w)).map (fun r => r.mnemonic) = [i.mnemonic]) ∧
    (∀ w : Word, (∃ e, decode w = .error e) ↔ ∀ r ∈ opcodeMap, r.covers w = false) ∧
    (∀ (w : Word) (i : Instr), decode w = .ok i → w.toNat < 0x100) ∧
    ((List.range 0x100).countP fun n => (decode (BitVec.ofNat 32 n)).isOk) = 39 ∧
    (∀ (w : Word) (i : Instr) (s : State), decode w = .ok i →
      (check i s = some .stride ↔
        w ∈ [0x05#32, 0x15#32, 0x25#32, 0x35#32, 0x07#32, 0x17#32, 0x27#32, 0x37#32]))

/-- R201 (the words it covers): which words are ILLEGAL, in arithmetic on the word. -/
def Obligations.IllegalWordsAreThese : Prop :=
  ∀ w : Word, (∃ e, decode w = .error e) ↔
    (w.toNat / 2 ^ 8 ≠ 0 ∨ 8 ≤ w.toNat % 16 ∨ (w.toNat % 16 ≤ 4 ∧ w.toNat / 2 ^ 4 % 16 ≠ 0) ∨
      (w.toNat % 16 = 6 ∧ w.toNat / 2 ^ 5 % 8 ≠ 0))

/-- Words written out from R95 and the decode vectors of 95_test_vectors.md part 9 decode to what they stand for. -/
def Obligations.SpecWordsDecode : Prop :=
  decode 0x00000000#32 = .ok .nop ∧ decode 0x00000001#32 = .ok .quant ∧ decode 0x00000002#32 = .ok .dequant ∧
    decode 0x00000003#32 = .ok .abs ∧ decode 0x00000004#32 = .ok .addsign ∧
    decode 0x000000D5#32 = .ok (.scanb .yx 6) ∧ decode 0x00000016#32 = .ok (.scanr .yx) ∧
    decode 0x000000F7#32 = .ok (.iscanb .yx 7) ∧ decode 0x00000015#32 = .ok (.scanb .yx 0)

/-! ## Reset, the step and the invariant (10_state.md, 44_control.md, 70_reset_and_hazards.md) -/

/-- R40: the state after reset. -/
def Obligations.ResetState : Prop :=
  let s := State.reset
  s.ctrlWord = 0#32 ∧ s.statusWord = 0#32 ∧ s.busy = false ∧ s.done = false ∧ s.errs = false ∧ s.dqsat = false ∧
    s.errCode = 0#4 ∧ s.cmdLast = 0#32 ∧ s.scale = 0#32 ∧ s.shift = 0#32 ∧ s.add = 0#32 ∧ s.dst = 0#32 ∧ s.src = 0#32 ∧
    s.len = 0#32 ∧ s.nzcnt = 0#32 ∧ s.row0 = 0#64 ∧ s.row1 = 0#64 ∧ s.row2 = 0#64 ∧ s.row3 = 0#64 ∧ s.irq = false ∧
    ∀ a, s.dmem.elem a = none

/-- The reset event (70_reset_and_hazards.md section 1): from any state, whatever is in progress, the device is at its
reset values; a pending command does not complete, and an access that was stalled gets no response. That the accesses a
stalled one holds behind it then never reach QSCAN is the model's choice (log 4). -/
def Obligations.ResetTakesPrecedence : Prop :=
  ∀ s : State, s.rst = true →
    ∃ t, step s = .next t ∧ t.toDevice = State.reset.toDevice ∧ t.rst = false ∧ t.replies = s.replies ∧ t.irq = false ∧
      (∀ a rest, s.pending = a :: rest → s.busy = true → a.stalls = true → t.pending = []) ∧
      (∀ a rest, s.pending = a :: rest → (s.busy = false ∨ a.stalls = false) → t.pending = s.pending)

/-- The invariant holds at reset. -/
def Obligations.ResetMeetsInv : Prop := StateInv State.reset

/-- The invariant is kept by every step, from every state that meets it. -/
def Obligations.StepKeepsInv : Prop :=
  ∀ s t : State, StateInv s → step s = .next t → StateInv t

/-- A step of the engine runs the decoded command, and nothing is added around it (44_control.md R191). When the engine
moves while host accesses wait is the model's choice: `EngineMoves` counts them down (logs 2 and 3). So is the second
clause: `withFetchWord` stands for an accepted write of the word to CMD, with no access before its execution, so that the
very next step runs it (log 8; 10_state.md R26, 44_control.md R190). -/
def Obligations.StepRunsDecodedCommand : Prop :=
  (∀ (s : State) (i : Instr), EngineMoves s → decode s.cmdLast = .ok i → step s = exec i s) ∧
    ∀ (s : State) (w : Word) (i : Instr), decode w = .ok i →
      step (s.withFetchWord 32 w.toNat) = exec i (s.withFetchWord 32 w.toNat)

/-- "The engine has no step while BUSY = 0" (44_control.md R191), and while BUSY = 0 QSCAN "does nothing until the next
host access" (60_exceptions.md R229): with no access to make, nothing changes, however many steps go by; with one, the
step is that access and nothing else. -/
def Obligations.IdleStepsChangeNothing : Prop :=
  (∀ s : State, s.rst = false → s.busy = false → s.pending = [] →
      step s = .next s ∧ ∀ n, Host.Core.run Sys2Proof.core n s = .next s) ∧
    ∀ (s : State) (a : BusAccess) (rest : List BusAccess),
      s.rst = false → s.busy = false → s.pending = a :: rest → step s = hostAccess a (s.withRest rest)

/-- R190: acceptance of a command word; while BUSY = 1 the write waits, and what follows the running command's completion
is a state in which the same write is accepted. How many accesses go before its execution is open (log 2). -/
def Obligations.CommandAcceptance : Prop :=
  (∀ (s : State) (w : Word) (rest : List BusAccess),
      s.rst = false → s.busy = false → s.pending = .write 0x0008#15 4 w :: rest →
      ∃ p, step s = .next
        { s with
          cmdLast := w
          busy := true
          done := false
          errCode := 0#4
          pollsLeft := p
          accepted := s.accepted + 1
          pending := rest
          replies := .ok :: s.replies }) ∧
    ∀ (s : State) (w : Word) (rest : List BusAccess),
      s.rst = false → s.busy = true → s.pending = .write 0x0008#15 4 w :: rest →
      ∃ t, step s = .next t ∧ t.rst = false ∧ t.busy = false ∧ t.pending = .write 0x0008#15 4 w :: rest

/-- 44_control.md R194 for the engine's next step: a host access to a stalling offset waits while BUSY = 1, the pending
command completes in that very step, and the access is then free to go; so a stall never becomes a deadlock. The
offsets that stall are those of R22 and the DMEM window. -/
def Obligations.HeldAccessIsReleased : Prop :=
  (∀ (s : State) (a : BusAccess) (rest : List BusAccess),
      s.rst = false → s.busy = true → s.pending = a :: rest → a.stalls = true →
      ∃ t, step s = .next t ∧ t.busy = false ∧ t.done = true ∧ t.pending = s.pending ∧ t.replies = s.replies) ∧
    ∀ a : BusAccess, a.stalls = true ↔
      (a.size = 4 ∧ a.off.toNat % 4 = 0 ∧
        ((0x08 ≤ a.off.toNat ∧ a.off.toNat ≤ 0x24) ∨ (0x40 ≤ a.off.toNat ∧ a.off.toNat ≤ 0x5C) ∨
          0x4000 ≤ a.off.toNat))

/-- Every command completes after finitely many host accesses (20_memory.md section 5, 70_reset_and_hazards.md
section 4): a pending command is executed within as many further accesses as its latency allows, if the host makes no
access that QSCAN answers with a bus error. The bound `pollsLeft + 1` counts the model's steps: the latency is the free
number of log 2, who moves in a step is log 3, and a plain run holds no reset after its start (log 4). -/
def Obligations.CommandCompletesInTime : Prop :=
  ∀ s : State, s.rst = false → s.busy = true → (∀ a ∈ s.pending, a.accepted = true) →
    ∃ n t, n ≤ s.pollsLeft + 1 ∧ Host.Core.run Sys2Proof.core n s = .next t ∧ t.busy = false ∧ t.done = true ∧
      t.cmdLast = s.cmdLast

/-- No command stops the machine: from every state, executing any command answers a next state in which it has
completed, with or without error (44_control.md section 1, 60_exceptions.md section 3). -/
def Obligations.EveryCommandCompletes : Prop :=
  ∀ (i : Instr) (s : State),
    ∃ t, exec i s = .next t ∧ t.busy = false ∧ t.done = true ∧ (t.errCode = 0#4 ↔ check i s = none) ∧
      (check i s = none → t.errs = s.errs)

/-! ## Errors (60_exceptions.md) -/

/-- R207, R210: the lowest-numbered failing condition is the one reported, by an error completion that changes nothing
but ERR_CODE, ERRS, BUSY and DONE; a command with no failing condition reports code 0. -/
def Obligations.LowestFailingCheckIsReported : Prop :=
  ∀ s : State, EngineMoves s →
    ∃ t, step s = .next t ∧
      ((∀ n, ¬ Fails s n) → t.errCode = 0#4 ∧ t.errs = s.errs) ∧
      ∀ n, Fails s n → (∀ m < n, ¬ Fails s m) →
        t = { s with errCode := BitVec.ofNat 4 n, errs := true, busy := false, done := true }

/-- An ILLEGAL word completes with error 1 and changes nothing but ERR_CODE, ERRS, BUSY and DONE
(30_encoding.md R86; 60_exceptions.md R201). -/
def Obligations.IllegalWordReportsCodeOne : Prop :=
  ∀ (s : State) (e : Illegal), EngineMoves s → decode s.cmdLast = .error e →
    step s = .next { s with errCode := 1#4, errs := true, busy := false, done := true }

/-! ## What each command does -/

/-- NOP does nothing but complete (44_control.md R196). -/
def Obligations.NopOnlyCompletes : Prop :=
  ∀ s : State, exec .nop s = .next { s with busy := false, done := true, errCode := 0#4 }

/-- QUANT with legal operands (40_quantizer.md): the levels at DMEM[DST ..], the count in NZCNT, completion, and nothing
else. `c` is what the reads gave; an element nothing has written may give any value (log 1). -/
def Obligations.QuantWritesLevelsAndCount : Prop :=
  ∀ s : State, ScaledLegal s →
    ∃ (c : Nat → Elem) (t : State),
      Snapshot s.dmem s.lenVal (linearAddr s.dstVal) c ∧
      exec .quant s = .next t ∧
      StoresExactly s.dmem t.dmem s.lenVal (linearAddr s.dstVal)
        (fun i => BitVec.ofInt 16 (levelOf s.scale.toNat s.shift.toNat s.add.toInt (c i).toInt)) ∧
      t = { s with
        dmem := t.dmem
        nzcnt := BitVec.ofNat 32 ((Finset.range s.len.toNat).filter
          (fun i => levelOf s.scale.toNat s.shift.toNat s.add.toInt (c i).toInt ≠ 0)).card
        memReads := t.memReads
        busy := false
        done := true
        errCode := 0#4 }

/-- DEQUANT with legal operands (41_dequantizer.md): the saturated coefficients at DMEM[DST ..], DQSAT set exactly when
one was clamped or it was set before, completion, and nothing else. -/
def Obligations.DequantWritesCoefficients : Prop :=
  ∀ s : State, ScaledLegal s →
    ∃ (l : Nat → Elem) (t : State),
      Snapshot s.dmem s.lenVal (linearAddr s.dstVal) l ∧
      exec .dequant s = .next t ∧
      StoresExactly s.dmem t.dmem s.lenVal (linearAddr s.dstVal)
        (fun i => BitVec.ofInt 16 (clamp16 (coefOf s.scale.toNat s.shift.toNat s.add.toInt (l i).toInt))) ∧
      (t.dqsat = true ↔ s.dqsat = true ∨ ∃ i < s.len.toNat,
        clamp16 (coefOf s.scale.toNat s.shift.toNat s.add.toInt (l i).toInt) ≠
          coefOf s.scale.toNat s.shift.toNat s.add.toInt (l i).toInt) ∧
      t = { s with
        dmem := t.dmem
        dqsat := t.dqsat
        memReads := t.memReads
        busy := false
        done := true
        errCode := 0#4 }

/-- ABS with legal operands (43_signmag.md): the clamped magnitudes of DMEM[SRC ..] at DMEM[DST ..], completion, and
nothing else. -/
def Obligations.AbsWritesMagnitudes : Prop :=
  ∀ s : State, HelperLegal s →
    ∃ (v : Nat → Elem) (t : State),
      Snapshot s.dmem s.lenVal (linearAddr s.srcVal) v ∧
      exec .abs s = .next t ∧
      StoresExactly s.dmem t.dmem s.lenVal (linearAddr s.dstVal) (fun i => BitVec.ofInt 16 (min 32767 |(v i).toInt|)) ∧
      t = { s with
        dmem := t.dmem
        memReads := t.memReads
        busy := false
        done := true
        errCode := 0#4 }

/-- ADDSIGN with legal operands (43_signmag.md): the magnitudes at SRC with the signs of the old elements at DST, their
count in NZCNT, completion, and nothing else. -/
def Obligations.AddsignWritesSignedMagnitudes : Prop :=
  ∀ s : State, HelperLegal s →
    ∃ (sg a : Nat → Elem) (t : State),
      Snapshot s.dmem s.lenVal (linearAddr s.dstVal) sg ∧
      Snapshot s.dmem s.lenVal (linearAddr s.srcVal) a ∧
      exec .addsign s = .next t ∧
      StoresExactly s.dmem t.dmem s.lenVal (linearAddr s.dstVal)
        (fun i => BitVec.ofInt 16 (clamp16 ((sg i).toInt.sign * (a i).toInt))) ∧
      t = { s with
        dmem := t.dmem
        nzcnt := BitVec.ofNat 32 ((Finset.range s.len.toNat).filter
          (fun i => clamp16 ((sg i).toInt.sign * (a i).toInt) ≠ 0)).card
        memReads := t.memReads
        busy := false
        done := true
        errCode := 0#4 }

/-- SCANB with legal operands (42_scanner.md): the strided CG at SRC, in scan order, at DMEM[DST .. DST+15]. -/
def Obligations.ScanbWritesScanOrder : Prop :=
  ∀ (ord : ScanOrder) (slog2 : Nat) (s : State), ScanbLegal slog2 s →
    ∃ (v : Nat → Elem) (t : State),
      Snapshot s.dmem 16 (stridedAddr s.srcVal slog2) v ∧
      exec (.scanb ord slog2) s = .next t ∧
      StoresExactly s.dmem t.dmem 16 (linearAddr s.dstVal) (fun k => v (scanPos (scanTable ord) k)) ∧
      t = { s with
        dmem := t.dmem
        memReads := t.memReads
        busy := false
        done := true
        errCode := 0#4 }

/-- SCANR with legal operands (42_scanner.md): the packed rows, in scan order, at DMEM[DST .. DST+15]; the rows stay. -/
def Obligations.ScanrWritesScanOrder : Prop :=
  ∀ (ord : ScanOrder) (s : State), ScanrLegal s →
    ∃ t : State,
      exec (.scanr ord) s = .next t ∧
      StoresExactly s.dmem t.dmem 16 (linearAddr s.dstVal) (fun k => s.rowLane (scanPos (scanTable ord) k)) ∧
      t = { s with dmem := t.dmem, busy := false, done := true, errCode := 0#4 }

/-- ISCANB with legal operands (42_scanner.md): the sixteen elements at SRC at their raster positions in the strided CG at
DST; elements outside the CG are not written. -/
def Obligations.IscanbWritesRasterOrder : Prop :=
  ∀ (ord : ScanOrder) (slog2 : Nat) (s : State), IscanbLegal slog2 s →
    ∃ (v : Nat → Elem) (t : State),
      Snapshot s.dmem 16 (linearAddr s.srcVal) v ∧
      exec (.iscanb ord slog2) s = .next t ∧
      StoresExactly s.dmem t.dmem 16 (fun k => stridedAddr s.dstVal slog2 (scanPos (scanTable ord) k)) v ∧
      t = { s with
        dmem := t.dmem
        memReads := t.memReads
        busy := false
        done := true
        errCode := 0#4 }

/-! ## Frames over all commands -/

/-- "Only host bus writes write these registers. No command writes them" (10_state.md sections 1, 3, 4 and 6): CTRL, the
CMD read value, the operand registers and the rows are as before, after every command and every error; so are the host's
accesses and answers. -/
def Obligations.CommandsKeepHostRegisters : Prop :=
  ∀ (i : Instr) (s t : State), exec i s = .next t →
    t.irqEn = s.irqEn ∧ t.cmdLast = s.cmdLast ∧ t.scale = s.scale ∧ t.shift = s.shift ∧ t.add = s.add ∧ t.dst = s.dst ∧
      t.src = s.src ∧ t.len = s.len ∧ t.row0 = s.row0 ∧ t.row1 = s.row1 ∧ t.row2 = s.row2 ∧ t.row3 = s.row3 ∧
      t.rst = s.rst ∧ t.pending = s.pending ∧ t.replies = s.replies

/-- Every byte outside the command's destination footprint reads as before, and on an error every byte does
(20_memory.md R61, 60_exceptions.md section 3). -/
def Obligations.CommandsWriteOnlyTheirFootprint : Prop :=
  ∀ (i : Instr) (s t : State), exec i s = .next t →
    (∀ b, (∀ a ∈ commandWrites i s, b ≠ loOffset a ∧ b ≠ hiOffset a) → t.dmem.byte b = s.dmem.byte b) ∧
      (t.errCode ≠ 0#4 → t.dmem = s.dmem)

/-- 10_state.md R33 (who writes NZCNT): only QUANT and ADDSIGN that complete without error change it, and what they leave is
at most LEN. -/
def Obligations.OnlyCountingCommandsWriteNzcnt : Prop :=
  ∀ (i : Instr) (s t : State), exec i s = .next t →
    ((i ≠ .quant ∧ i ≠ .addsign) ∨ t.errCode ≠ 0#4 → t.nzcnt = s.nzcnt) ∧
      ((i = .quant ∨ i = .addsign) → t.errCode = 0#4 → t.nzcnt.toNat ≤ s.len.toNat)

/-- 10_state.md R24 (the sticky bits): no command clears ERRS or DQSAT; only an error sets ERRS; only DEQUANT sets DQSAT. -/
def Obligations.StickyFlagsSurviveCommands : Prop :=
  ∀ (i : Instr) (s t : State), exec i s = .next t →
    (s.errs = true → t.errs = true) ∧ (s.dqsat = true → t.dqsat = true) ∧
      (t.errCode ≠ 0#4 ↔ check i s ≠ none) ∧ (t.errs = true ↔ s.errs = true ∨ t.errCode ≠ 0#4) ∧
      (i ≠ .dequant → t.dqsat = s.dqsat)

/-- Every command is a function of the state it reads (44_control.md section 1): two states that agree on the operand
registers, the rows and the elements the command reads, all written, give the same code, the same written elements, the
same count and the same saturation, whatever else differs. The elements are written even where the command ends in an
error; which error that is, `LowestFailingCheckIsReported` says for every state. -/
def Obligations.CommandsDependOnlyOnTheirInputs : Prop :=
  ∀ (i : Instr) (s s' t t' : State),
    s.scale = s'.scale → s.shift = s'.shift → s.add = s'.add → s.dst = s'.dst → s.src = s'.src → s.len = s'.len →
    s.row0 = s'.row0 → s.row1 = s'.row1 → s.row2 = s'.row2 → s.row3 = s'.row3 →
    (∀ a ∈ commandReads i s, ∃ e, s.dmem.elem a = some e ∧ s'.dmem.elem a = some e) →
    exec i s = .next t → exec i s' = .next t' →
    t.errCode = t'.errCode ∧
      (t.errCode = 0#4 → ∀ a ∈ commandWrites i s, ∃ e, t.dmem.elem a = some e ∧ t'.dmem.elem a = some e) ∧
      (t.errCode = 0#4 → i = .quant ∨ i = .addsign → t.nzcnt = t'.nzcnt) ∧
      (s.dqsat = s'.dqsat → t.dqsat = t'.dqsat)

/-! ## The arithmetic (40_quantizer.md, 41_dequantizer.md) -/

/-- At legal operands a 32-bit unsigned intermediate holds QUANT's sum exactly (40_quantizer.md R101): the exact magnitude
is what 32-bit unsigned arithmetic gives. -/
def Obligations.QuantFitsUnsigned32 : Prop :=
  ∀ (c : Elem) (sc ad : Word) (sh : Nat), sc.toNat ≤ 65535 → ad.toNat < 2 ^ 31 → sh ≤ 31 →
    quantMagnitude sc.toNat sh ad.toInt (sext16 c) = (((BitVec.ofInt 32 |c.toInt| * sc + ad) >>> sh).toNat : Int)

/-- At legal operands a 33-bit two's-complement intermediate holds DEQUANT's sum exactly (41_dequantizer.md R124). -/
def Obligations.DequantFitsSigned33 : Prop :=
  ∀ (l : Elem) (sc ad : Word) (sh : Nat), sc.toNat ≤ 65535 → ad.toNat < 2 ^ 31 → sh ≤ 31 →
    dequantExact sc.toNat sh ad.toInt l =
      ((l.signExtend 33 * sc.zeroExtend 33 + ad.zeroExtend 33).sshiftRight sh).toInt

/-- QUANT rounds magnitudes, so it is symmetric about zero unless it saturates (40_quantizer.md R102). −32768 has no
negation among the elements. -/
def Obligations.QuantIsOddUnlessSaturated : Prop :=
  ∀ (c : Elem) (sc sh : Nat) (ad : Int), sc ≤ 65535 → sh ≤ 31 → 0 ≤ ad → ad < 2 ^ 31 → c ≠ 0x8000#16 →
    ((|c.toInt| * sc + ad) / 2 ^ sh < 32768 →
      (quantLevel sc sh ad (-c)).toInt = -(quantLevel sc sh ad c).toInt) ∧
    (32768 ≤ (|c.toInt| * sc + ad) / 2 ^ sh → 0 < c.toInt →
      (quantLevel sc sh ad c).toInt = 32767 ∧ (quantLevel sc sh ad (-c)).toInt = -32768)

/-- The dead zone: a nonzero element gives level 0 exactly when `abs(c)·sc + ad < 2^sh`, and a zero element always does
(40_quantizer.md R103, R104). -/
def Obligations.QuantDeadZone : Prop :=
  ∀ (c : Elem) (sc sh : Nat) (ad : Int), sc ≤ 65535 → sh ≤ 31 → 0 ≤ ad → ad < 2 ^ 31 →
    (quantLevel sc sh ad c = 0#16 ↔ c = 0#16 ∨ |c.toInt| * sc + ad < 2 ^ sh)

/-- Zero preservation: QUANT of an all-zero block leaves it all zero with count 0 (40_quantizer.md R103). -/
def Obligations.QuantKeepsZeroBlock : Prop :=
  ∀ s : State, ScaledLegal s → (∀ i < s.len.toNat, s.dmem.elem (s.dst.toNat + i) = some 0#16) →
    ∃ t, exec .quant s = .next t ∧ t.nzcnt = 0#32 ∧ ∀ i < s.len.toNat, t.dmem.elem (s.dst.toNat + i) = some 0#16

/-- DQSAT = 0 after DEQUANT says that the unsaturated formula held for every element (41_dequantizer.md R121). -/
def Obligations.DequantExactWhenNotSaturated : Prop :=
  ∀ s : State, ScaledLegal s →
    ∃ t, exec .dequant s = .next t ∧
      (t.dqsat = false → ∀ i < s.len.toNat, ∀ l, s.dmem.elem (s.dst.toNat + i) = some l →
        ∃ r, t.dmem.elem (s.dst.toNat + i) = some r ∧
          r.toInt = (l.toInt * s.scale.toNat + s.add.toInt) / 2 ^ s.shift.toNat)

/-! ## Signs and magnitudes (43_signmag.md) -/

/-- ABS of a copy, then ADDSIGN, restores the original elements but for −32768, which comes back as −32767; NZCNT is then
the number of nonzero elements (43_signmag.md R174). -/
def Obligations.AbsThenAddsignRestores : Prop :=
  ∀ (s : State) (d : Word) (x : Nat → Elem),
    s.len.toNat % 16 = 0 → s.dst = s.src → s.src.toNat + s.len.toNat ≤ 8192 → d.toNat + s.len.toNat ≤ 8192 →
    (d.toNat + s.len.toNat ≤ s.src.toNat ∨ s.src.toNat + s.len.toNat ≤ d.toNat) →
    (∀ i < s.len.toNat, s.dmem.elem (d.toNat + i) = some (x i) ∧ s.dmem.elem (s.src.toNat + i) = some (x i)) →
    ∃ t u, exec .abs s = .next t ∧ exec .addsign { t with dst := d } = .next u ∧
      (∀ i < s.len.toNat,
        u.dmem.elem (d.toNat + i) = some (if x i = 0x8000#16 then 0x8001#16 else x i)) ∧
      u.nzcnt.toNat = ((Finset.range s.len.toNat).filter (fun i => x i ≠ 0#16)).card

/-- With SRC = DST, ADDSIGN computes the clamped magnitude in place (43_signmag.md R173). -/
def Obligations.AddsignInPlaceIsAbs : Prop :=
  ∀ (s : State) (x : Nat → Elem), HelperLegal s → s.src = s.dst →
    (∀ i < s.len.toNat, s.dmem.elem (s.dst.toNat + i) = some (x i)) →
    ∃ t u, exec .addsign s = .next t ∧ exec .abs s = .next u ∧
      ∀ i < s.len.toNat, t.dmem.elem (s.dst.toNat + i) = u.dmem.elem (s.dst.toNat + i) ∧
        ∃ r, t.dmem.elem (s.dst.toNat + i) = some r ∧ r.toInt = min 32767 |(x i).toInt|

/-! ## Scanning (42_scanner.md) -/

/-- What R140 requires of the scan tables, in use in the model: each a bijection, and the two distinct. -/
def Obligations.ScanTablesAreLegal : Prop :=
  (∀ o, Function.Bijective (scanTable o)) ∧ scanTable .xy ≠ scanTable .yx

/-- R143: where the element at row `p >> 2`, column `p AND 3` stands, in a strided block and in the packed rows. -/
def Obligations.RasterPositions : Prop :=
  ∀ p < 16,
    (∀ b slog2, stridedAddr b slog2 p = b + p / 4 * 2 ^ slog2 + p % 4) ∧
    ∀ s : State, ∀ j < 16,
      (s.rowLane p).getLsbD j = ([s.row0, s.row1, s.row2, s.row3].getD (p / 4) 0#64).getLsbD (16 * (p % 4) + j)

/-- Scanning then inverse-scanning recovers the original order (42_scanner.md R150): SCANB from a strided CG into a buffer,
then ISCANB from the buffer into a strided CG at `y` with the same order and stride, for any tables. -/
def Obligations.ScanThenInverseScanRestores : Prop :=
  ∀ (ord : ScanOrder) (slog2 : Nat) (s : State) (x : Nat → Elem) (y : Word),
    ScanbLegal slog2 s → y.toNat + 3 * 2 ^ slog2 + 4 ≤ 8192 →
    (∀ p < 16, s.dmem.elem (stridedAddr s.src.toNat slog2 p) = some (x p)) →
    ∃ t u, exec (.scanb ord slog2) s = .next t ∧
      exec (.iscanb ord slog2) { t with src := s.dst, dst := y } = .next u ∧
      ∀ p < 16, u.dmem.elem (stridedAddr y.toNat slog2 p) = some (x p)

/-- SCANR is the same permutation as SCANB: from a strided block that holds the lanes of the rows, SCANB leaves the same
DMEM (42_scanner.md R147). -/
def Obligations.ScanrMatchesScanb : Prop :=
  ∀ (ord : ScanOrder) (slog2 : Nat) (s : State),
    ScanbLegal slog2 s → (∀ p < 16, s.dmem.elem (stridedAddr s.src.toNat slog2 p) = some (s.rowLane p)) →
    ∃ t u, exec (.scanr ord) s = .next t ∧ exec (.scanb ord slog2) s = .next u ∧ t.dmem = u.dmem

/-- SCANB is purely a permutation: the sixteen elements it leaves at DST are the sixteen of the CG, reordered
(42_scanner.md R145). -/
def Obligations.ScanKeepsEveryValue : Prop :=
  ∀ (ord : ScanOrder) (slog2 : Nat) (s : State) (x : Nat → Elem),
    ScanbLegal slog2 s → (∀ p < 16, s.dmem.elem (stridedAddr s.src.toNat slog2 p) = some (x p)) →
    ∃ t, exec (.scanb ord slog2) s = .next t ∧
      ((List.range 16).map fun k => t.dmem.elem (s.dst.toNat + k)).Perm ((List.range 16).map fun p => some (x p))

/-- A CG whose elements are pairwise distinct scans differently under the two orders (42_scanner.md R151), for any
tables. -/
def Obligations.DistinctElementsScanDifferently : Prop :=
  ∀ (slog2 : Nat) (s : State) (x : Nat → Elem),
    ScanbLegal slog2 s → (∀ p < 16, s.dmem.elem (stridedAddr s.src.toNat slog2 p) = some (x p)) →
    (∀ p < 16, ∀ q < 16, x p = x q → p = q) →
    ∃ t u, exec (.scanb .xy slog2) s = .next t ∧ exec (.scanb .yx slog2) s = .next u ∧
      ∃ k < 16, t.dmem.elem (s.dst.toNat + k) ≠ u.dmem.elem (s.dst.toNat + k)

/-! ## The bus (10_state.md, 20_memory.md) -/

/-- R23: CTRL keeps bit 0 of a write and ignores the others; a read returns it in bit 0; it enables `irq`; it is 0 after
reset. -/
def Obligations.CtrlHoldsIrqEnable : Prop :=
  (∀ (s : State) (w : Word) (rest : List BusAccess), HostMoves s (.write 0x0000#15 4 w) rest →
      step s = .next { s.withRest rest with irqEn := w.getLsbD 0, replies := .ok :: s.replies }) ∧
    (∀ (s : State) (rest : List BusAccess), HostMoves s (.read 0x0000#15 4) rest →
      step s = .next { s.withRest rest with replies := .data (if s.irqEn then 1#32 else 0#32) :: s.replies }) ∧
    (∀ s : State, s.irq = (s.irqEn && s.done)) ∧ State.reset.irqEn = false

/-- A read of STATUS returns its fields at the places of 10_state.md R24, and zero elsewhere. -/
def Obligations.StatusReadsItsFields : Prop :=
  ∀ (s : State) (rest : List BusAccess), HostMoves s (.read 0x0004#15 4) rest →
    ∃ v : Word, step s = .next { s.withRest rest with replies := .data v :: s.replies } ∧
      v.toNat = s.busy.toNat + 2 * s.done.toNat + 4 * s.errs.toNat + 8 * s.dqsat.toNat + 256 * s.errCode.toNat

/-- R25: a write of `w` to STATUS clears DONE, ERRS and DQSAT where `w` has a 1 in bits 1, 2 and 3, leaves every other bit
unchanged, and is not held while BUSY = 1. DONE is 0 while BUSY = 1, and only the completion, a step of its own, sets it. -/
def Obligations.StatusWriteClearsOnes : Prop :=
  (∀ (s : State) (w : Word) (rest : List BusAccess), HostMoves s (.write 0x0004#15 4 w) rest →
      step s = .next
        { s.withRest rest with
          done := if w.getLsbD 1 then false else s.done
          errs := if w.getLsbD 2 then false else s.errs
          dqsat := if w.getLsbD 3 then false else s.dqsat
          replies := .ok :: s.replies }) ∧
    (∀ w : Word, (BusAccess.write 0x0004#15 4 w).stalls = false) ∧
    (∀ s : State, StateInv s → s.busy = true → s.done = false) ∧
    ∀ s : State, EngineMoves s → ∃ t, step s = .next t ∧ t.done = true

/-- A read of CMD returns the last accepted word (10_state.md R26), and a read of NZCNT the count (R33). -/
def Obligations.CmdAndNzcntReadTheirValues : Prop :=
  ∀ (s : State) (rest : List BusAccess), s.rst = false → s.busy = false →
    (s.pending = .read 0x0008#15 4 :: rest →
      step s = .next { s.withRest rest with replies := .data s.cmdLast :: s.replies }) ∧
    (s.pending = .read 0x0024#15 4 :: rest →
      step s = .next { s.withRest rest with replies := .data s.nzcnt :: s.replies })

/-- The operand registers and the row registers keep every 32-bit value and read it back unchanged
(10_state.md sections 4 and 6): a write then a read, with every other register, DMEM and every flag as before. -/
def Obligations.OperandRegistersReadBack : Prop :=
  ∀ (off : BusOffset) (w : Word) (s : State) (rest : List BusAccess),
    off.toNat ∈ [0x0C, 0x10, 0x14, 0x18, 0x1C, 0x20, 0x40, 0x44, 0x48, 0x4C, 0x50, 0x54, 0x58, 0x5C] →
    s.rst = false → s.busy = false → s.pending = .write off 4 w :: .read off 4 :: rest →
    ∃ t, Host.Core.run Sys2Proof.core 2 s = .next t ∧ t.replies = .data w :: .ok :: s.replies ∧ t.pending = rest ∧
      t = { s with
        scale := if off.toNat = 0x0C then w else s.scale
        shift := if off.toNat = 0x10 then w else s.shift
        add := if off.toNat = 0x14 then w else s.add
        dst := if off.toNat = 0x18 then w else s.dst
        src := if off.toNat = 0x1C then w else s.src
        len := if off.toNat = 0x20 then w else s.len
        row0 := if off.toNat = 0x40 then s.row0.extractLsb' 32 32 ++ w
          else if off.toNat = 0x44 then w ++ s.row0.extractLsb' 0 32 else s.row0
        row1 := if off.toNat = 0x48 then s.row1.extractLsb' 32 32 ++ w
          else if off.toNat = 0x4C then w ++ s.row1.extractLsb' 0 32 else s.row1
        row2 := if off.toNat = 0x50 then s.row2.extractLsb' 32 32 ++ w
          else if off.toNat = 0x54 then w ++ s.row2.extractLsb' 0 32 else s.row2
        row3 := if off.toNat = 0x58 then s.row3.extractLsb' 32 32 ++ w
          else if off.toNat = 0x5C then w ++ s.row3.extractLsb' 0 32 else s.row3
        pending := rest
        replies := t.replies
        pollsLeft := t.pollsLeft }

/-- R35 and the write side of NZCNT (10_state.md R33): a reserved offset reads as zero and ignores writes, never stalls
and never raises a bus error; NZCNT ignores writes. -/
def Obligations.ReservedOffsetsAreZero : Prop :=
  (∀ (s : State) (off : BusOffset) (w : Word) (rest : List BusAccess),
      off.toNat % 4 = 0 → off.toNat < 0x4000 →
      off.toNat ∉ [0x00, 0x04, 0x08, 0x0C, 0x10, 0x14, 0x18, 0x1C, 0x20, 0x24, 0x40, 0x44, 0x48, 0x4C, 0x50, 0x54, 0x58, 0x5C] →
      (BusAccess.read off 4).stalls = false ∧ (BusAccess.write off 4 w).stalls = false ∧
      (HostMoves s (.read off 4) rest →
        step s = .next { s.withRest rest with replies := .data 0#32 :: s.replies }) ∧
      (HostMoves s (.write off 4 w) rest → step s = .next { s.withRest rest with replies := .ok :: s.replies })) ∧
    ∀ (s : State) (w : Word) (rest : List BusAccess), s.rst = false → s.busy = false →
      s.pending = .write 0x0024#15 4 w :: rest →
      step s = .next { s.withRest rest with replies := .ok :: s.replies }

/-- R63: the DMEM word at `0x4000 + 4k` holds elements 2k (bits 15:0) and 2k+1 (bits 31:16), at the bytes the rule names;
a write stores both and nothing else, and a read returns both. -/
def Obligations.DmemWindowHoldsTwoElements : Prop :=
  ∀ (s : State) (k : Nat) (w : Word) (rest : List BusAccess), k < 4096 → s.rst = false → s.busy = false →
    (s.pending = .write (BitVec.ofNat 15 (0x4000 + 4 * k)) 4 w :: rest →
      ∃ t, step s = .next t ∧
        t.dmem.elem (2 * k) = some (w.extractLsb' 0 16) ∧ t.dmem.elem (2 * k + 1) = some (w.extractLsb' 16 16) ∧
        (∀ j < 4, t.dmem.byte (0x4000 + 4 * k + j) = some (w.extractLsb' (8 * j) 8)) ∧
        (∀ b, (b < 0x4000 + 4 * k ∨ 0x4000 + 4 * k + 4 ≤ b) → t.dmem.byte b = s.dmem.byte b) ∧
        t = { s.withRest rest with dmem := t.dmem, replies := .ok :: s.replies }) ∧
    (s.pending = .read (BitVec.ofNat 15 (0x4000 + 4 * k)) 4 :: rest →
      ∃ e0 e1 t, step s = .next t ∧ Snapshot s.dmem 2 (fun i => 2 * k + i) (fun i => if i = 0 then e0 else e1) ∧
        t = { s.withRest rest with replies := .data (e1 ++ e0) :: s.replies, memReads := t.memReads })

/-- R65: an access of another size, or at an offset that is no multiple of 4, is answered with a bus error: the run ends
there. Such an access is never held. -/
def Obligations.BadAccessesAreBusErrors : Prop :=
  ∀ (s : State) (a : BusAccess) (rest : List BusAccess),
    (a.size ≠ 4 → a.stalls = false ∧ (HostMoves s a rest → step s = .fault (.busErrorSize a.size))) ∧
    (a.size = 4 → a.off.toNat % 4 ≠ 0 →
      a.stalls = false ∧ (HostMoves s a rest → step s = .fault (.busErrorAlignment a.off)))

/-- "No host read has a side effect" (20_memory.md R68): after an accepted read the device is as it was. -/
def Obligations.ReadsChangeNothing : Prop :=
  ∀ (s : State) (off : BusOffset) (rest : List BusAccess), off.toNat % 4 = 0 → HostMoves s (.read off 4) rest →
    ∃ t v, step s = .next t ∧ t.toDevice = s.toDevice ∧ t.pending = rest ∧ t.replies = .data v :: s.replies

/-- R215: the level of `irq`, what raises it and what drops it. -/
def Obligations.InterruptFollowsDone : Prop :=
  (∀ s : State, s.irq = true ↔ s.irqEn = true ∧ s.done = true) ∧
    (∀ s t : State, EngineMoves s → step s = .next t → t.irq = s.irqEn) ∧
    (∀ (s : State) (w : Word) (rest : List BusAccess), HostMoves s (.write 0x0000#15 4 w) rest →
      ∃ t, step s = .next t ∧ t.irq = (w.getLsbD 0 && s.done)) ∧
    (∀ (s : State) (w : Word) (rest : List BusAccess), HostMoves s (.write 0x0004#15 4 w) rest → w.getLsbD 1 = true →
      ∃ t, step s = .next t ∧ t.irq = false) ∧
    (∀ (s : State) (w : Word) (rest : List BusAccess), s.rst = false → s.busy = false →
      s.pending = .write 0x0008#15 4 w :: rest → ∃ t, step s = .next t ∧ t.irq = false)

/-- The window of 0x8000 bytes at QS_BASE (20_memory.md R62), for every base. -/
def Obligations.WindowIsAtBase : Prop :=
  ∀ base addr : Nat,
    (∀ off, windowOffset base addr = some off → addr = base + off.toNat) ∧
    (windowOffset base addr = none ↔ addr < base ∨ base + 0x8000 ≤ addr)

/-! ## Whole runs -/

/-- The `wait` loop of 30_encoding.md R96 ends: from a pending command, a host program that polls STATUS until BUSY = 0
goes on past the loop with the command completed. The bound counts the model's steps of host and device: the latency is the
free number of log 2, and how the notation steps is the model's choice (log 9). A host that waits for no answer has no
access under way, so whatever stands in `device.pending` then, the host's next access takes its place (log 9). No reset
comes in such a run (log 4). -/
def Obligations.WaitLoopEnds : Prop :=
  ∀ (h : HostRun) (st : Nat),
    h.awaiting = none → h.program[h.pos]? = some (.rd 0x0004#15 st) →
    h.program[h.pos + 1]? = some (.bnz st 0x1#32 h.pos) →
    h.device.rst = false → h.device.busy = true →
    ∃ n h', n ≤ 4 * h.device.pollsLeft + 5 ∧ HostRun.run n h = .next h' ∧ h'.pos = h.pos + 2 ∧ h'.awaiting = none ∧
      h'.device.busy = false ∧ h'.device.cmdLast = h.device.cmdLast

/-- "Every command completes after a finite time" (70_reset_and_hazards.md R252), whatever the host does: a host program,
from any position, with branches and accesses as it likes as long as QSCAN accepts them, does not keep a pending command from
completing, if no reset comes (log 4). The bound counts the model's steps of host and device: the latency is the free number
of log 2, and how the notation steps is the model's choice (log 9). -/
def Obligations.HostProgramsCompleteCommands : Prop :=
  ∀ h : HostRun, h.device.rst = false → h.device.busy = true → (∀ a ∈ h.device.pending, a.accepted = true) →
    h.program.all HostOp.aligned = true →
    ∃ n h', n ≤ 3 * h.device.pollsLeft + 3 ∧ HostRun.run n h = .next h' ∧ h'.device.busy = false ∧ h'.device.done = true ∧
      h'.device.cmdLast = h.device.cmdLast

/-- Nothing but a bus error stops a run (60_exceptions.md R213): from every state that meets the invariant and whose
waiting accesses QSCAN accepts, a run of any number of steps answers a next state, which meets the invariant. -/
def Obligations.SafeRunsGoOn : Prop :=
  ∀ (n : Nat) (s : State), StateInv s → (∀ a ∈ s.pending, a.accepted = true) →
    ∃ t, Host.Core.run Sys2Proof.core n s = .next t ∧ StateInv t

/-- A reset may come at any moment (70_reset_and_hazards.md R240, R241): over any levels of the reset input, a run goes on
and keeps the invariant; and where the input is asserted last, the device stands at its reset values, whatever was in progress.
With the input never asserted, the run is a plain run. That the input is sampled before each step is the model's choice
(log 4). -/
def Obligations.ResetsMayComeAtAnyMoment : Prop :=
  (∀ (rs : List Bool) (s : State), StateInv s → (∀ a ∈ s.pending, a.accepted = true) →
      (∃ t, runInputs rs s = .next t ∧ StateInv t) ∧
      ∃ u, runInputs (rs ++ [true]) s = .next u ∧ u.toDevice = State.reset.toDevice ∧ u.rst = false ∧ u.irq = false) ∧
    ∀ (n : Nat) (s : State), runInputs (List.replicate n false) s = Host.Core.run Sys2Proof.core n s

/-- A run that reads no unwritten element has a defined result (70_reset_and_hazards.md R244 (1), 93_implementation_defined.md
U3): numbering the reads otherwise, which gives every free read another value, changes neither the device nor an answer.
The free value and the counter that indexes it are the model's choice (log 1). -/
def Obligations.SafeRunsIgnoreFreeReads : Prop :=
  ∀ (n k : Nat) (s : State), SafeRun n s →
    ∃ t t', Host.Core.run Sys2Proof.core n s = .next t ∧
      Host.Core.run Sys2Proof.core n { s with memReads := k } = .next t' ∧ t' = { t with memReads := t'.memReads }
end

