-- ==== Sys2Proof/Laws/Arith.lean ====
section
/-! SUPPORT. The arithmetic primitives of R5 to R8 in the library's own operations. -/

namespace Sys2Proof.Machine

theorem signOf_eq_sign (v : Int) : signOf v = v.sign := by
  unfold signOf
  rcases lt_trichotomy v 0 with h | h | h
  · rw [if_neg (by omega), if_neg (by omega), Int.sign_eq_neg_one_of_neg h]
  · simp [h]
  · rw [if_pos h, Int.sign_eq_one_of_pos h]

theorem absOf_eq_abs (v : Int) : absOf v = |v| := by
  unfold absOf
  split
  · rw [abs_of_neg (by assumption)]
  · rw [abs_of_nonneg (by omega)]

theorem absOf_nonneg (v : Int) : 0 ≤ absOf v := by
  unfold absOf; split <;> omega

theorem sat16_mem_range (v : Int) : -32768 ≤ sat16 v ∧ sat16 v ≤ 32767 := by
  unfold sat16; split
  · omega
  · split <;> omega

theorem sat16_of_mem_range {v : Int} (hl : -32768 ≤ v) (hu : v ≤ 32767) : sat16 v = v := by
  unfold sat16; rw [if_neg (by omega), if_neg (by omega)]

/-- The clamp changes a value exactly when it lies outside the signed 16-bit range. -/
theorem sat16_eq_self_iff (v : Int) : sat16 v = v ↔ -32768 ≤ v ∧ v ≤ 32767 :=
  ⟨fun h => h ▸ sat16_mem_range v, fun h => sat16_of_mem_range h.1 h.2⟩

/-- Division by a power of two rounds toward negative infinity, as Lean's `/` on integers does. -/
theorem floorShr_eq_div (v : Int) (s : Nat) : floorShr v s = v / 2 ^ s :=
  Int.fdiv_eq_ediv_of_nonneg v (by positivity)

theorem sext16_mem_range (e : Elem) : -32768 ≤ sext16 e ∧ sext16 e ≤ 32767 := by
  have h := e.isLt
  unfold sext16
  rw [BitVec.toInt_eq_toNat_cond]
  split <;> omega

/-- An integer of the signed 16-bit range survives being stored in an element. -/
theorem sext16_trunc16 {v : Int} (hl : -32768 ≤ v) (hu : v ≤ 32767) : sext16 (trunc16 v) = v := by
  unfold sext16 trunc16
  rw [BitVec.toInt_ofInt]
  exact Int.bmod_eq_of_le (by omega) (by omega)

theorem sext16_trunc16_sat16 (v : Int) : sext16 (trunc16 (sat16 v)) = sat16 v :=
  sext16_trunc16 (sat16_mem_range v).1 (sat16_mem_range v).2

theorem trunc16_sext16 (e : Elem) : trunc16 (sext16 e) = e := by
  unfold trunc16 sext16; exact BitVec.ofInt_toInt

end Sys2Proof.Machine
end

