-- ==== Sys2Proof/Laws/Bus.lean ====
section
/-! SUPPORT. The bus port: which target each offset reaches, and which accesses are accepted. -/

namespace Sys2Proof.Machine

/-! ## Accepted accesses (R65) -/

@[simp] theorem accepted_read (off : BusOffset) (size : Nat) :
    (BusAccess.read off size).accepted = (size == 4 && off.toNat % 4 == 0) := rfl

@[simp] theorem accepted_write (off : BusOffset) (size : Nat) (w : Word) :
    (BusAccess.write off size w).accepted = (size == 4 && off.toNat % 4 == 0) := rfl

@[simp] theorem stalls_read (off : BusOffset) (size : Nat) :
    (BusAccess.read off size).stalls = (size == 4 && off.toNat % 4 == 0 && (targetOf off).stalls) := rfl

@[simp] theorem stalls_write (off : BusOffset) (size : Nat) (w : Word) :
    (BusAccess.write off size w).stalls = (size == 4 && off.toNat % 4 == 0 && (targetOf off).stalls) := rfl

/-! ## The register map, row by row (R22) -/

@[simp] theorem targetOf_ctrl : targetOf 0x0000#15 = .reg .ctrl := by decide
@[simp] theorem targetOf_status : targetOf 0x0004#15 = .reg .status := by decide
@[simp] theorem targetOf_cmd : targetOf 0x0008#15 = .reg .cmd := by decide
@[simp] theorem targetOf_scale : targetOf 0x000C#15 = .reg .scale := by decide
@[simp] theorem targetOf_shift : targetOf 0x0010#15 = .reg .shift := by decide
@[simp] theorem targetOf_add : targetOf 0x0014#15 = .reg .add := by decide
@[simp] theorem targetOf_dst : targetOf 0x0018#15 = .reg .dst := by decide
@[simp] theorem targetOf_src : targetOf 0x001C#15 = .reg .src := by decide
@[simp] theorem targetOf_len : targetOf 0x0020#15 = .reg .len := by decide
@[simp] theorem targetOf_nzcnt : targetOf 0x0024#15 = .reg .nzcnt := by decide
@[simp] theorem targetOf_row0Lo : targetOf 0x0040#15 = .reg (.rowLo 0) := by decide
@[simp] theorem targetOf_row0Hi : targetOf 0x0044#15 = .reg (.rowHi 0) := by decide
@[simp] theorem targetOf_row1Lo : targetOf 0x0048#15 = .reg (.rowLo 1) := by decide
@[simp] theorem targetOf_row1Hi : targetOf 0x004C#15 = .reg (.rowHi 1) := by decide
@[simp] theorem targetOf_row2Lo : targetOf 0x0050#15 = .reg (.rowLo 2) := by decide
@[simp] theorem targetOf_row2Hi : targetOf 0x0054#15 = .reg (.rowHi 2) := by decide
@[simp] theorem targetOf_row3Lo : targetOf 0x0058#15 = .reg (.rowLo 3) := by decide
@[simp] theorem targetOf_row3Hi : targetOf 0x005C#15 = .reg (.rowHi 3) := by decide

/-- The eighteen offsets of R22. -/
theorem registerMap_offsets :
    registerMap.map (·.1) =
      [0x00, 0x04, 0x08, 0x0C, 0x10, 0x14, 0x18, 0x1C, 0x20, 0x24, 0x40, 0x44, 0x48, 0x4C, 0x50, 0x54, 0x58, 0x5C] := rfl

/-- An offset below the DMEM window that R22 does not list is reserved (R35). -/
theorem targetOf_reserved {off : BusOffset} (h : off.toNat < 0x4000) (hn : off.toNat ∉ registerMap.map (·.1)) :
    targetOf off = .reserved := by
  unfold targetOf
  rw [if_pos h, List.lookup_eq_none_iff.mpr]
  intro p hp
  have hne : off.toNat ≠ p.1 := fun e => hn (by rw [e]; exact List.mem_map_of_mem hp)
  simpa using hne

/-- The DMEM window (R63). -/
theorem targetOf_dmem {k : Nat} (h : k < 4096) : targetOf (BitVec.ofNat 15 (0x4000 + 4 * k)) = .dmem k := by
  unfold targetOf
  rw [BitVec.toNat_ofNat, Nat.mod_eq_of_lt (by omega), if_neg (by omega)]
  congr 1
  omega

/-- A bus offset reaches one of the 4096 words of DMEM (R63). -/
theorem dmem_word_lt {off : BusOffset} {k : Nat} (h : targetOf off = .dmem k) : k < 4096 := by
  unfold targetOf at h
  split at h
  · split at h <;> cases h
  · cases h
    have := off.isLt
    omega

end Sys2Proof.Machine
end

