-- ==== Sys2Proof/Laws/Checks.lean ====
section
/-! SUPPORT. When the checks of a command pass, in the terms of Safety.lean. -/

namespace Sys2Proof.Machine

/-- ADD's bit 31 is clear exactly when it is below 2^31 (R29). -/
theorem bit31_false_iff (w : Word) : w.getLsbD 31 = false ↔ w.toNat < 2 ^ 31 := by
  have h : w.getLsbD 31 = w.msb := by rw [BitVec.msb_eq_getLsbD_last]
  rw [h, BitVec.msb_eq_false_iff_two_mul_lt]
  omega

theorem checkScaled_eq_none_iff (s : State) : checkScaled s = none ↔ ScaledLegal s := by
  have hb := bit31_false_iff s.add
  simp only [checkScaled, State.lenVal, State.shiftVal, State.scaleVal, State.dstVal, pastEnd, dmemWords]
  constructor
  · intro h
    split at h
    · cases h
    · split at h
      · cases h
      · split at h
        · cases h
        · split at h
          · cases h
          · rename_i h1 h2 h3 h4
            rw [not_or, Bool.not_eq_true, hb] at h3
            exact ⟨by omega, by omega, by omega, h3.2, by omega⟩
  · rintro ⟨h1, h2, h3, h4, h5⟩
    rw [if_neg (by omega), if_neg (by omega), if_neg (by rw [not_or, Bool.not_eq_true, hb]; omega), if_neg (by omega)]

theorem checkHelper_eq_none_iff (s : State) : checkHelper s = none ↔ HelperLegal s := by
  simp only [checkHelper, State.lenVal, State.dstVal, State.srcVal, pastEnd, dmemWords]
  split
  · simp; omega
  · split <;> simp <;> omega

theorem checkScanb_eq_none_iff (slog2 : Nat) (s : State) : checkScanb slog2 s = none ↔ ScanbLegal slog2 s := by
  simp only [checkScanb, State.dstVal, State.srcVal, pastEnd, dmemWords, stridedSpan]
  split
  · simp; omega
  · split <;> simp <;> omega

theorem checkScanr_eq_none_iff (s : State) : checkScanr s = none ↔ ScanrLegal s := by
  simp only [checkScanr, State.dstVal, pastEnd, dmemWords]
  split <;> simp <;> omega

theorem checkIscanb_eq_none_iff (slog2 : Nat) (s : State) : checkIscanb slog2 s = none ↔ IscanbLegal slog2 s := by
  simp only [checkIscanb, State.dstVal, State.srcVal, pastEnd, dmemWords, stridedSpan]
  split
  · simp; omega
  · split <;> simp <;> omega

end Sys2Proof.Machine
end

