-- ==== Sys2Proof/Laws/Effects.lean ====
section
/-! SUPPORT. What the effect of each command does to each field of the state, one lemma per field. -/

namespace Sys2Proof.Machine

/-! ### `quantEffect` -/

@[simp] theorem quantEffect_irqEn (s : State) : (quantEffect s).irqEn = s.irqEn := rfl
@[simp] theorem quantEffect_busy (s : State) : (quantEffect s).busy = s.busy := rfl
@[simp] theorem quantEffect_done (s : State) : (quantEffect s).done = s.done := rfl
@[simp] theorem quantEffect_errs (s : State) : (quantEffect s).errs = s.errs := rfl
@[simp] theorem quantEffect_dqsat (s : State) : (quantEffect s).dqsat = s.dqsat := rfl
@[simp] theorem quantEffect_errCode (s : State) : (quantEffect s).errCode = s.errCode := rfl
@[simp] theorem quantEffect_cmdLast (s : State) : (quantEffect s).cmdLast = s.cmdLast := rfl
@[simp] theorem quantEffect_scale (s : State) : (quantEffect s).scale = s.scale := rfl
@[simp] theorem quantEffect_shift (s : State) : (quantEffect s).shift = s.shift := rfl
@[simp] theorem quantEffect_add (s : State) : (quantEffect s).add = s.add := rfl
@[simp] theorem quantEffect_dst (s : State) : (quantEffect s).dst = s.dst := rfl
@[simp] theorem quantEffect_src (s : State) : (quantEffect s).src = s.src := rfl
@[simp] theorem quantEffect_len (s : State) : (quantEffect s).len = s.len := rfl
@[simp] theorem quantEffect_nzcnt (s : State) : (quantEffect s).nzcnt = BitVec.ofNat 32 (nonzeroCount s.lenVal s.quantAt) := rfl
@[simp] theorem quantEffect_row0 (s : State) : (quantEffect s).row0 = s.row0 := rfl
@[simp] theorem quantEffect_row1 (s : State) : (quantEffect s).row1 = s.row1 := rfl
@[simp] theorem quantEffect_row2 (s : State) : (quantEffect s).row2 = s.row2 := rfl
@[simp] theorem quantEffect_row3 (s : State) : (quantEffect s).row3 = s.row3 := rfl
@[simp] theorem quantEffect_dmem (s : State) : (quantEffect s).dmem = s.dmem.storeElems (linearAddr s.dstVal) s.quantAt s.lenVal := rfl
@[simp] theorem quantEffect_rst (s : State) : (quantEffect s).rst = s.rst := rfl
@[simp] theorem quantEffect_pending (s : State) : (quantEffect s).pending = s.pending := rfl
@[simp] theorem quantEffect_replies (s : State) : (quantEffect s).replies = s.replies := rfl
@[simp] theorem quantEffect_pollsLeft (s : State) : (quantEffect s).pollsLeft = s.pollsLeft := rfl
@[simp] theorem quantEffect_accepted (s : State) : (quantEffect s).accepted = s.accepted := rfl
@[simp] theorem quantEffect_memReads (s : State) : (quantEffect s).memReads = s.memReads + s.lenVal := rfl

/-! ### `dequantEffect` -/

@[simp] theorem dequantEffect_irqEn (s : State) : (dequantEffect s).irqEn = s.irqEn := rfl
@[simp] theorem dequantEffect_busy (s : State) : (dequantEffect s).busy = s.busy := rfl
@[simp] theorem dequantEffect_done (s : State) : (dequantEffect s).done = s.done := rfl
@[simp] theorem dequantEffect_errs (s : State) : (dequantEffect s).errs = s.errs := rfl
@[simp] theorem dequantEffect_dqsat (s : State) : (dequantEffect s).dqsat = (s.dqsat || anyClamped s.lenVal s.dequantAt) := rfl
@[simp] theorem dequantEffect_errCode (s : State) : (dequantEffect s).errCode = s.errCode := rfl
@[simp] theorem dequantEffect_cmdLast (s : State) : (dequantEffect s).cmdLast = s.cmdLast := rfl
@[simp] theorem dequantEffect_scale (s : State) : (dequantEffect s).scale = s.scale := rfl
@[simp] theorem dequantEffect_shift (s : State) : (dequantEffect s).shift = s.shift := rfl
@[simp] theorem dequantEffect_add (s : State) : (dequantEffect s).add = s.add := rfl
@[simp] theorem dequantEffect_dst (s : State) : (dequantEffect s).dst = s.dst := rfl
@[simp] theorem dequantEffect_src (s : State) : (dequantEffect s).src = s.src := rfl
@[simp] theorem dequantEffect_len (s : State) : (dequantEffect s).len = s.len := rfl
@[simp] theorem dequantEffect_nzcnt (s : State) : (dequantEffect s).nzcnt = s.nzcnt := rfl
@[simp] theorem dequantEffect_row0 (s : State) : (dequantEffect s).row0 = s.row0 := rfl
@[simp] theorem dequantEffect_row1 (s : State) : (dequantEffect s).row1 = s.row1 := rfl
@[simp] theorem dequantEffect_row2 (s : State) : (dequantEffect s).row2 = s.row2 := rfl
@[simp] theorem dequantEffect_row3 (s : State) : (dequantEffect s).row3 = s.row3 := rfl
@[simp] theorem dequantEffect_dmem (s : State) : (dequantEffect s).dmem = s.dmem.storeElems (linearAddr s.dstVal) (fun i => trunc16 (sat16 (s.dequantAt i))) s.lenVal := rfl
@[simp] theorem dequantEffect_rst (s : State) : (dequantEffect s).rst = s.rst := rfl
@[simp] theorem dequantEffect_pending (s : State) : (dequantEffect s).pending = s.pending := rfl
@[simp] theorem dequantEffect_replies (s : State) : (dequantEffect s).replies = s.replies := rfl
@[simp] theorem dequantEffect_pollsLeft (s : State) : (dequantEffect s).pollsLeft = s.pollsLeft := rfl
@[simp] theorem dequantEffect_accepted (s : State) : (dequantEffect s).accepted = s.accepted := rfl
@[simp] theorem dequantEffect_memReads (s : State) : (dequantEffect s).memReads = s.memReads + s.lenVal := rfl

/-! ### `absEffect` -/

@[simp] theorem absEffect_irqEn (s : State) : (absEffect s).irqEn = s.irqEn := rfl
@[simp] theorem absEffect_busy (s : State) : (absEffect s).busy = s.busy := rfl
@[simp] theorem absEffect_done (s : State) : (absEffect s).done = s.done := rfl
@[simp] theorem absEffect_errs (s : State) : (absEffect s).errs = s.errs := rfl
@[simp] theorem absEffect_dqsat (s : State) : (absEffect s).dqsat = s.dqsat := rfl
@[simp] theorem absEffect_errCode (s : State) : (absEffect s).errCode = s.errCode := rfl
@[simp] theorem absEffect_cmdLast (s : State) : (absEffect s).cmdLast = s.cmdLast := rfl
@[simp] theorem absEffect_scale (s : State) : (absEffect s).scale = s.scale := rfl
@[simp] theorem absEffect_shift (s : State) : (absEffect s).shift = s.shift := rfl
@[simp] theorem absEffect_add (s : State) : (absEffect s).add = s.add := rfl
@[simp] theorem absEffect_dst (s : State) : (absEffect s).dst = s.dst := rfl
@[simp] theorem absEffect_src (s : State) : (absEffect s).src = s.src := rfl
@[simp] theorem absEffect_len (s : State) : (absEffect s).len = s.len := rfl
@[simp] theorem absEffect_nzcnt (s : State) : (absEffect s).nzcnt = s.nzcnt := rfl
@[simp] theorem absEffect_row0 (s : State) : (absEffect s).row0 = s.row0 := rfl
@[simp] theorem absEffect_row1 (s : State) : (absEffect s).row1 = s.row1 := rfl
@[simp] theorem absEffect_row2 (s : State) : (absEffect s).row2 = s.row2 := rfl
@[simp] theorem absEffect_row3 (s : State) : (absEffect s).row3 = s.row3 := rfl
@[simp] theorem absEffect_dmem (s : State) : (absEffect s).dmem = s.dmem.storeElems (linearAddr s.dstVal) s.absAt s.lenVal := rfl
@[simp] theorem absEffect_rst (s : State) : (absEffect s).rst = s.rst := rfl
@[simp] theorem absEffect_pending (s : State) : (absEffect s).pending = s.pending := rfl
@[simp] theorem absEffect_replies (s : State) : (absEffect s).replies = s.replies := rfl
@[simp] theorem absEffect_pollsLeft (s : State) : (absEffect s).pollsLeft = s.pollsLeft := rfl
@[simp] theorem absEffect_accepted (s : State) : (absEffect s).accepted = s.accepted := rfl
@[simp] theorem absEffect_memReads (s : State) : (absEffect s).memReads = s.memReads + s.lenVal := rfl

/-! ### `addsignEffect` -/

@[simp] theorem addsignEffect_irqEn (s : State) : (addsignEffect s).irqEn = s.irqEn := rfl
@[simp] theorem addsignEffect_busy (s : State) : (addsignEffect s).busy = s.busy := rfl
@[simp] theorem addsignEffect_done (s : State) : (addsignEffect s).done = s.done := rfl
@[simp] theorem addsignEffect_errs (s : State) : (addsignEffect s).errs = s.errs := rfl
@[simp] theorem addsignEffect_dqsat (s : State) : (addsignEffect s).dqsat = s.dqsat := rfl
@[simp] theorem addsignEffect_errCode (s : State) : (addsignEffect s).errCode = s.errCode := rfl
@[simp] theorem addsignEffect_cmdLast (s : State) : (addsignEffect s).cmdLast = s.cmdLast := rfl
@[simp] theorem addsignEffect_scale (s : State) : (addsignEffect s).scale = s.scale := rfl
@[simp] theorem addsignEffect_shift (s : State) : (addsignEffect s).shift = s.shift := rfl
@[simp] theorem addsignEffect_add (s : State) : (addsignEffect s).add = s.add := rfl
@[simp] theorem addsignEffect_dst (s : State) : (addsignEffect s).dst = s.dst := rfl
@[simp] theorem addsignEffect_src (s : State) : (addsignEffect s).src = s.src := rfl
@[simp] theorem addsignEffect_len (s : State) : (addsignEffect s).len = s.len := rfl
@[simp] theorem addsignEffect_nzcnt (s : State) : (addsignEffect s).nzcnt = BitVec.ofNat 32 (nonzeroCount s.lenVal s.addsignAt) := rfl
@[simp] theorem addsignEffect_row0 (s : State) : (addsignEffect s).row0 = s.row0 := rfl
@[simp] theorem addsignEffect_row1 (s : State) : (addsignEffect s).row1 = s.row1 := rfl
@[simp] theorem addsignEffect_row2 (s : State) : (addsignEffect s).row2 = s.row2 := rfl
@[simp] theorem addsignEffect_row3 (s : State) : (addsignEffect s).row3 = s.row3 := rfl
@[simp] theorem addsignEffect_dmem (s : State) : (addsignEffect s).dmem = s.dmem.storeElems (linearAddr s.dstVal) s.addsignAt s.lenVal := rfl
@[simp] theorem addsignEffect_rst (s : State) : (addsignEffect s).rst = s.rst := rfl
@[simp] theorem addsignEffect_pending (s : State) : (addsignEffect s).pending = s.pending := rfl
@[simp] theorem addsignEffect_replies (s : State) : (addsignEffect s).replies = s.replies := rfl
@[simp] theorem addsignEffect_pollsLeft (s : State) : (addsignEffect s).pollsLeft = s.pollsLeft := rfl
@[simp] theorem addsignEffect_accepted (s : State) : (addsignEffect s).accepted = s.accepted := rfl
@[simp] theorem addsignEffect_memReads (s : State) : (addsignEffect s).memReads = s.memReads + 2 * s.lenVal := rfl

/-! ### `scanbEffect` -/

@[simp] theorem scanbEffect_irqEn (t : ScanTable) (g : Nat) (s : State) : (scanbEffect t g s).irqEn = s.irqEn := by simp only [scanbEffect]
@[simp] theorem scanbEffect_busy (t : ScanTable) (g : Nat) (s : State) : (scanbEffect t g s).busy = s.busy := by simp only [scanbEffect]
@[simp] theorem scanbEffect_done (t : ScanTable) (g : Nat) (s : State) : (scanbEffect t g s).done = s.done := by simp only [scanbEffect]
@[simp] theorem scanbEffect_errs (t : ScanTable) (g : Nat) (s : State) : (scanbEffect t g s).errs = s.errs := by simp only [scanbEffect]
@[simp] theorem scanbEffect_dqsat (t : ScanTable) (g : Nat) (s : State) : (scanbEffect t g s).dqsat = s.dqsat := by simp only [scanbEffect]
@[simp] theorem scanbEffect_errCode (t : ScanTable) (g : Nat) (s : State) : (scanbEffect t g s).errCode = s.errCode := by simp only [scanbEffect]
@[simp] theorem scanbEffect_cmdLast (t : ScanTable) (g : Nat) (s : State) : (scanbEffect t g s).cmdLast = s.cmdLast := by simp only [scanbEffect]
@[simp] theorem scanbEffect_scale (t : ScanTable) (g : Nat) (s : State) : (scanbEffect t g s).scale = s.scale := by simp only [scanbEffect]
@[simp] theorem scanbEffect_shift (t : ScanTable) (g : Nat) (s : State) : (scanbEffect t g s).shift = s.shift := by simp only [scanbEffect]
@[simp] theorem scanbEffect_add (t : ScanTable) (g : Nat) (s : State) : (scanbEffect t g s).add = s.add := by simp only [scanbEffect]
@[simp] theorem scanbEffect_dst (t : ScanTable) (g : Nat) (s : State) : (scanbEffect t g s).dst = s.dst := by simp only [scanbEffect]
@[simp] theorem scanbEffect_src (t : ScanTable) (g : Nat) (s : State) : (scanbEffect t g s).src = s.src := by simp only [scanbEffect]
@[simp] theorem scanbEffect_len (t : ScanTable) (g : Nat) (s : State) : (scanbEffect t g s).len = s.len := by simp only [scanbEffect]
@[simp] theorem scanbEffect_nzcnt (t : ScanTable) (g : Nat) (s : State) : (scanbEffect t g s).nzcnt = s.nzcnt := by simp only [scanbEffect]
@[simp] theorem scanbEffect_row0 (t : ScanTable) (g : Nat) (s : State) : (scanbEffect t g s).row0 = s.row0 := by simp only [scanbEffect]
@[simp] theorem scanbEffect_row1 (t : ScanTable) (g : Nat) (s : State) : (scanbEffect t g s).row1 = s.row1 := by simp only [scanbEffect]
@[simp] theorem scanbEffect_row2 (t : ScanTable) (g : Nat) (s : State) : (scanbEffect t g s).row2 = s.row2 := by simp only [scanbEffect]
@[simp] theorem scanbEffect_row3 (t : ScanTable) (g : Nat) (s : State) : (scanbEffect t g s).row3 = s.row3 := by simp only [scanbEffect]
@[simp] theorem scanbEffect_dmem (t : ScanTable) (g : Nat) (s : State) : (scanbEffect t g s).dmem = s.dmem.storeElems (linearAddr s.dstVal)
      (fun k => s.readElem (scanPos t k) (stridedAddr s.srcVal g (scanPos t k))) 16 := by simp only [scanbEffect]
@[simp] theorem scanbEffect_rst (t : ScanTable) (g : Nat) (s : State) : (scanbEffect t g s).rst = s.rst := by simp only [scanbEffect]
@[simp] theorem scanbEffect_pending (t : ScanTable) (g : Nat) (s : State) : (scanbEffect t g s).pending = s.pending := by simp only [scanbEffect]
@[simp] theorem scanbEffect_replies (t : ScanTable) (g : Nat) (s : State) : (scanbEffect t g s).replies = s.replies := by simp only [scanbEffect]
@[simp] theorem scanbEffect_pollsLeft (t : ScanTable) (g : Nat) (s : State) : (scanbEffect t g s).pollsLeft = s.pollsLeft := by simp only [scanbEffect]
@[simp] theorem scanbEffect_accepted (t : ScanTable) (g : Nat) (s : State) : (scanbEffect t g s).accepted = s.accepted := by simp only [scanbEffect]
@[simp] theorem scanbEffect_memReads (t : ScanTable) (g : Nat) (s : State) : (scanbEffect t g s).memReads = s.memReads + 16 := by simp only [scanbEffect]

/-! ### `scanrEffect` -/

@[simp] theorem scanrEffect_irqEn (t : ScanTable) (s : State) : (scanrEffect t s).irqEn = s.irqEn := by simp only [scanrEffect]
@[simp] theorem scanrEffect_busy (t : ScanTable) (s : State) : (scanrEffect t s).busy = s.busy := by simp only [scanrEffect]
@[simp] theorem scanrEffect_done (t : ScanTable) (s : State) : (scanrEffect t s).done = s.done := by simp only [scanrEffect]
@[simp] theorem scanrEffect_errs (t : ScanTable) (s : State) : (scanrEffect t s).errs = s.errs := by simp only [scanrEffect]
@[simp] theorem scanrEffect_dqsat (t : ScanTable) (s : State) : (scanrEffect t s).dqsat = s.dqsat := by simp only [scanrEffect]
@[simp] theorem scanrEffect_errCode (t : ScanTable) (s : State) : (scanrEffect t s).errCode = s.errCode := by simp only [scanrEffect]
@[simp] theorem scanrEffect_cmdLast (t : ScanTable) (s : State) : (scanrEffect t s).cmdLast = s.cmdLast := by simp only [scanrEffect]
@[simp] theorem scanrEffect_scale (t : ScanTable) (s : State) : (scanrEffect t s).scale = s.scale := by simp only [scanrEffect]
@[simp] theorem scanrEffect_shift (t : ScanTable) (s : State) : (scanrEffect t s).shift = s.shift := by simp only [scanrEffect]
@[simp] theorem scanrEffect_add (t : ScanTable) (s : State) : (scanrEffect t s).add = s.add := by simp only [scanrEffect]
@[simp] theorem scanrEffect_dst (t : ScanTable) (s : State) : (scanrEffect t s).dst = s.dst := by simp only [scanrEffect]
@[simp] theorem scanrEffect_src (t : ScanTable) (s : State) : (scanrEffect t s).src = s.src := by simp only [scanrEffect]
@[simp] theorem scanrEffect_len (t : ScanTable) (s : State) : (scanrEffect t s).len = s.len := by simp only [scanrEffect]
@[simp] theorem scanrEffect_nzcnt (t : ScanTable) (s : State) : (scanrEffect t s).nzcnt = s.nzcnt := by simp only [scanrEffect]
@[simp] theorem scanrEffect_row0 (t : ScanTable) (s : State) : (scanrEffect t s).row0 = s.row0 := by simp only [scanrEffect]
@[simp] theorem scanrEffect_row1 (t : ScanTable) (s : State) : (scanrEffect t s).row1 = s.row1 := by simp only [scanrEffect]
@[simp] theorem scanrEffect_row2 (t : ScanTable) (s : State) : (scanrEffect t s).row2 = s.row2 := by simp only [scanrEffect]
@[simp] theorem scanrEffect_row3 (t : ScanTable) (s : State) : (scanrEffect t s).row3 = s.row3 := by simp only [scanrEffect]
@[simp] theorem scanrEffect_dmem (t : ScanTable) (s : State) : (scanrEffect t s).dmem = s.dmem.storeElems (linearAddr s.dstVal) (fun k => s.rowLane (scanPos t k)) 16 := by simp only [scanrEffect]
@[simp] theorem scanrEffect_rst (t : ScanTable) (s : State) : (scanrEffect t s).rst = s.rst := by simp only [scanrEffect]
@[simp] theorem scanrEffect_pending (t : ScanTable) (s : State) : (scanrEffect t s).pending = s.pending := by simp only [scanrEffect]
@[simp] theorem scanrEffect_replies (t : ScanTable) (s : State) : (scanrEffect t s).replies = s.replies := by simp only [scanrEffect]
@[simp] theorem scanrEffect_pollsLeft (t : ScanTable) (s : State) : (scanrEffect t s).pollsLeft = s.pollsLeft := by simp only [scanrEffect]
@[simp] theorem scanrEffect_accepted (t : ScanTable) (s : State) : (scanrEffect t s).accepted = s.accepted := by simp only [scanrEffect]
@[simp] theorem scanrEffect_memReads (t : ScanTable) (s : State) : (scanrEffect t s).memReads = s.memReads := by simp only [scanrEffect]

/-! ### `iscanbEffect` -/

@[simp] theorem iscanbEffect_irqEn (t : ScanTable) (g : Nat) (s : State) : (iscanbEffect t g s).irqEn = s.irqEn := by simp only [iscanbEffect]
@[simp] theorem iscanbEffect_busy (t : ScanTable) (g : Nat) (s : State) : (iscanbEffect t g s).busy = s.busy := by simp only [iscanbEffect]
@[simp] theorem iscanbEffect_done (t : ScanTable) (g : Nat) (s : State) : (iscanbEffect t g s).done = s.done := by simp only [iscanbEffect]
@[simp] theorem iscanbEffect_errs (t : ScanTable) (g : Nat) (s : State) : (iscanbEffect t g s).errs = s.errs := by simp only [iscanbEffect]
@[simp] theorem iscanbEffect_dqsat (t : ScanTable) (g : Nat) (s : State) : (iscanbEffect t g s).dqsat = s.dqsat := by simp only [iscanbEffect]
@[simp] theorem iscanbEffect_errCode (t : ScanTable) (g : Nat) (s : State) : (iscanbEffect t g s).errCode = s.errCode := by simp only [iscanbEffect]
@[simp] theorem iscanbEffect_cmdLast (t : ScanTable) (g : Nat) (s : State) : (iscanbEffect t g s).cmdLast = s.cmdLast := by simp only [iscanbEffect]
@[simp] theorem iscanbEffect_scale (t : ScanTable) (g : Nat) (s : State) : (iscanbEffect t g s).scale = s.scale := by simp only [iscanbEffect]
@[simp] theorem iscanbEffect_shift (t : ScanTable) (g : Nat) (s : State) : (iscanbEffect t g s).shift = s.shift := by simp only [iscanbEffect]
@[simp] theorem iscanbEffect_add (t : ScanTable) (g : Nat) (s : State) : (iscanbEffect t g s).add = s.add := by simp only [iscanbEffect]
@[simp] theorem iscanbEffect_dst (t : ScanTable) (g : Nat) (s : State) : (iscanbEffect t g s).dst = s.dst := by simp only [iscanbEffect]
@[simp] theorem iscanbEffect_src (t : ScanTable) (g : Nat) (s : State) : (iscanbEffect t g s).src = s.src := by simp only [iscanbEffect]
@[simp] theorem iscanbEffect_len (t : ScanTable) (g : Nat) (s : State) : (iscanbEffect t g s).len = s.len := by simp only [iscanbEffect]
@[simp] theorem iscanbEffect_nzcnt (t : ScanTable) (g : Nat) (s : State) : (iscanbEffect t g s).nzcnt = s.nzcnt := by simp only [iscanbEffect]
@[simp] theorem iscanbEffect_row0 (t : ScanTable) (g : Nat) (s : State) : (iscanbEffect t g s).row0 = s.row0 := by simp only [iscanbEffect]
@[simp] theorem iscanbEffect_row1 (t : ScanTable) (g : Nat) (s : State) : (iscanbEffect t g s).row1 = s.row1 := by simp only [iscanbEffect]
@[simp] theorem iscanbEffect_row2 (t : ScanTable) (g : Nat) (s : State) : (iscanbEffect t g s).row2 = s.row2 := by simp only [iscanbEffect]
@[simp] theorem iscanbEffect_row3 (t : ScanTable) (g : Nat) (s : State) : (iscanbEffect t g s).row3 = s.row3 := by simp only [iscanbEffect]
@[simp] theorem iscanbEffect_dmem (t : ScanTable) (g : Nat) (s : State) : (iscanbEffect t g s).dmem = s.dmem.storeElems (fun k => stridedAddr s.dstVal g (scanPos t k))
      (fun k => s.readElem k (linearAddr s.srcVal k)) 16 := by simp only [iscanbEffect]
@[simp] theorem iscanbEffect_rst (t : ScanTable) (g : Nat) (s : State) : (iscanbEffect t g s).rst = s.rst := by simp only [iscanbEffect]
@[simp] theorem iscanbEffect_pending (t : ScanTable) (g : Nat) (s : State) : (iscanbEffect t g s).pending = s.pending := by simp only [iscanbEffect]
@[simp] theorem iscanbEffect_replies (t : ScanTable) (g : Nat) (s : State) : (iscanbEffect t g s).replies = s.replies := by simp only [iscanbEffect]
@[simp] theorem iscanbEffect_pollsLeft (t : ScanTable) (g : Nat) (s : State) : (iscanbEffect t g s).pollsLeft = s.pollsLeft := by simp only [iscanbEffect]
@[simp] theorem iscanbEffect_accepted (t : ScanTable) (g : Nat) (s : State) : (iscanbEffect t g s).accepted = s.accepted := by simp only [iscanbEffect]
@[simp] theorem iscanbEffect_memReads (t : ScanTable) (g : Nat) (s : State) : (iscanbEffect t g s).memReads = s.memReads + 16 := by simp only [iscanbEffect]

end Sys2Proof.Machine
end

