-- ==== Sys2Proof/Laws/Memory.lean ====
section
/-! SUPPORT. The laws of DMEM: a read after a write, what a write leaves alone, and the canonical form. -/

namespace Sys2Proof.Machine

/-! ## Bytes -/

/-- Reading any byte after writing one. -/
theorem Memory.byte_setByte (m : Memory) (a b : Nat) (v : Byte) :
    (m.setByte a v).byte b = if b = a then some v else m.byte b := by
  induction m with
  | nil =>
    by_cases h : b = a
    · simp [Memory.setByte, Memory.byte, h]
    · simp [Memory.setByte, Memory.byte, h, Ne.symm h]
  | cons c rest ih =>
    obtain ⟨k, u⟩ := c
    unfold Memory.setByte
    by_cases h1 : a < k
    · rw [if_pos h1]
      by_cases h : b = a
      · simp [Memory.byte, h]
      · simp [Memory.byte, h, Ne.symm h]
    · rw [if_neg h1]
      by_cases h2 : a = k
      · subst h2
        rw [if_pos rfl]
        by_cases h : b = a
        · simp [Memory.byte, h]
        · simp [Memory.byte, h, Ne.symm h]
      · rw [if_neg h2]
        by_cases h : k = b
        · subst h
          simp [Memory.byte, Ne.symm h2]
        · simp only [Memory.byte, if_neg h, ih]

theorem Memory.byte_setByte_same (m : Memory) (a : Nat) (v : Byte) : (m.setByte a v).byte a = some v := by
  simp [Memory.byte_setByte]

theorem Memory.byte_setByte_ne (m : Memory) {a b : Nat} (v : Byte) (h : b ≠ a) :
    (m.setByte a v).byte b = m.byte b := by
  simp [Memory.byte_setByte, h]

/-! ## The canonical form -/

/-- The canonical form, seen as an order of the listed offsets. -/
theorem Memory.wf_iff_pairwise (m : Memory) : m.wf = true ↔ m.Pairwise (fun c d => c.1 < d.1) := by
  induction m with
  | nil => simp [Memory.wf]
  | cons c rest ih =>
    cases rest with
    | nil => simp [Memory.wf]
    | cons d rest' =>
      simp only [Memory.wf, Bool.and_eq_true, decide_eq_true_eq, ih]
      constructor
      · rintro ⟨h, hp⟩
        refine List.pairwise_cons.mpr ⟨fun e he => ?_, hp⟩
        rcases List.mem_cons.mp he with rfl | he'
        · exact h
        · exact lt_trans h ((List.pairwise_cons.mp hp).1 e he')
      · intro hp
        exact ⟨(List.pairwise_cons.mp hp).1 d (by simp), (List.pairwise_cons.mp hp).2⟩

/-- Every entry after a byte write is the one written or an old one. -/
theorem Memory.mem_setByte {m : Memory} {a : Nat} {v : Byte} {c : Host.Cell} (h : c ∈ m.setByte a v) :
    c = (a, v) ∨ c ∈ m := by
  induction m with
  | nil => exact Or.inl (by simpa [Memory.setByte] using h)
  | cons d rest ih =>
    obtain ⟨k, u⟩ := d
    unfold Memory.setByte at h
    split at h
    · rcases List.mem_cons.mp h with h | h
      · exact Or.inl h
      · exact Or.inr h
    · split at h
      · rcases List.mem_cons.mp h with h | h
        · exact Or.inl h
        · exact Or.inr (List.mem_cons_of_mem _ h)
      · rcases List.mem_cons.mp h with h | h
        · exact Or.inr (by simp [h])
        · rcases ih h with h | h
          · exact Or.inl h
          · exact Or.inr (List.mem_cons_of_mem _ h)

/-- A byte write keeps the canonical form. -/
theorem Memory.wf_setByte {m : Memory} (h : m.wf = true) (a : Nat) (v : Byte) : (m.setByte a v).wf = true := by
  rw [Memory.wf_iff_pairwise] at h ⊢
  induction m with
  | nil => simp [Memory.setByte]
  | cons d rest ih =>
    obtain ⟨k, u⟩ := d
    obtain ⟨hk, hr⟩ := List.pairwise_cons.mp h
    unfold Memory.setByte
    split
    · rename_i hlt
      refine List.pairwise_cons.mpr ⟨fun c hc => ?_, h⟩
      rcases List.mem_cons.mp hc with rfl | hc
      · exact hlt
      · exact lt_trans hlt (hk c hc)
    · split
      · rename_i heq
        exact List.pairwise_cons.mpr ⟨fun c hc => heq ▸ hk c hc, hr⟩
      · refine List.pairwise_cons.mpr ⟨fun c hc => ?_, ih hr⟩
        rcases Memory.mem_setByte hc with rfl | hc
        · exact lt_of_le_of_ne (by omega) (by simpa using Ne.symm (by assumption))
        · exact hk c hc

/-! ## Elements -/

theorem loOffset_ne_hiOffset (a b : Nat) : loOffset a ≠ hiOffset b := by
  unfold loOffset hiOffset; omega

theorem loOffset_inj {a b : Nat} : loOffset a = loOffset b ↔ a = b := by
  unfold loOffset; omega

theorem hiOffset_inj {a b : Nat} : hiOffset a = hiOffset b ↔ a = b := by
  unfold hiOffset; omega

/-- A little-endian pair of bytes is the element it came from (R66). -/
theorem elem_bytes (v : Elem) : v.extractLsb' 8 8 ++ v.extractLsb' 0 8 = v := by
  apply BitVec.eq_of_getLsbD_eq
  intro i hi
  rw [BitVec.getLsbD_append]
  split
  · simp_all
  · rw [BitVec.getLsbD_extractLsb']
    simp only [show i - 8 < 8 by omega, decide_true, Bool.true_and]
    congr 1
    omega

/-- Reading any byte after writing an element. -/
theorem Memory.byte_setElem (m : Memory) (a b : Nat) (v : Elem) :
    (m.setElem a v).byte b =
      if b = hiOffset a then some (v.extractLsb' 8 8)
      else if b = loOffset a then some (v.extractLsb' 0 8) else m.byte b := by
  unfold Memory.setElem
  rw [Memory.byte_setByte, Memory.byte_setByte]

theorem Memory.byte_setElem_ne (m : Memory) {a b : Nat} (v : Elem) (hl : b ≠ loOffset a) (hh : b ≠ hiOffset a) :
    (m.setElem a v).byte b = m.byte b := by
  rw [Memory.byte_setElem, if_neg hh, if_neg hl]

theorem Memory.elem_setElem_same (m : Memory) (a : Nat) (v : Elem) : (m.setElem a v).elem a = some v := by
  unfold Memory.elem
  rw [Memory.byte_setElem, Memory.byte_setElem, if_pos rfl, if_neg (loOffset_ne_hiOffset a a), if_pos rfl]
  simp only [elem_bytes]

theorem Memory.elem_setElem_ne (m : Memory) {a b : Nat} (v : Elem) (h : b ≠ a) :
    (m.setElem a v).elem b = m.elem b := by
  unfold Memory.elem
  rw [Memory.byte_setElem_ne m v (Ne.symm (loOffset_ne_hiOffset a b)) (fun e => h (hiOffset_inj.mp e)),
    Memory.byte_setElem_ne m v (fun e => h (loOffset_inj.mp e)) (loOffset_ne_hiOffset b a)]

/-- Reading any element after writing one. -/
theorem Memory.elem_setElem (m : Memory) (a b : Nat) (v : Elem) :
    (m.setElem a v).elem b = if b = a then some v else m.elem b := by
  split
  · rename_i h; rw [h, Memory.elem_setElem_same]
  · rename_i h; exact Memory.elem_setElem_ne m v h

/-- Every element has both of its bytes or neither (R67). -/
abbrev Memory.paired (m : Memory) : Prop := ∀ a, (m.byte (loOffset a)).isSome = (m.byte (hiOffset a)).isSome

/-- Writing an element keeps elements whole. -/
theorem Memory.paired_setElem {m : Memory} (h : m.paired) (b : Nat) (v : Elem) : (m.setElem b v).paired := by
  intro a
  by_cases hab : a = b
  · subst hab
    simp [Memory.byte_setElem, loOffset_ne_hiOffset]
  · have hl : loOffset a ≠ loOffset b := fun e => hab (loOffset_inj.mp e)
    have hh : hiOffset a ≠ hiOffset b := fun e => hab (hiOffset_inj.mp e)
    rw [Memory.byte_setElem_ne m v hl (loOffset_ne_hiOffset a b),
      Memory.byte_setElem_ne m v (loOffset_ne_hiOffset b a).symm hh]
    exact h a

theorem Memory.wf_setElem {m : Memory} (h : m.wf = true) (a : Nat) (v : Elem) : (m.setElem a v).wf = true :=
  Memory.wf_setByte (Memory.wf_setByte h _ _) _ _

/-! ## A command's stores -/

/-- A byte that belongs to none of the stored elements is left alone. -/
theorem Memory.byte_storeElems_ne (m : Memory) (addr : Nat → Nat) (val : Nat → Elem) (b : Nat) :
    ∀ n, (∀ i < n, b ≠ loOffset (addr i) ∧ b ≠ hiOffset (addr i)) →
      (m.storeElems addr val n).byte b = m.byte b
  | 0, _ => rfl
  | n + 1, h => by
    unfold Memory.storeElems
    rw [Memory.byte_setElem_ne _ _ (h n (by omega)).1 (h n (by omega)).2]
    exact Memory.byte_storeElems_ne m addr val b n fun i hi => h i (by omega)

/-- An element that is none of the stored ones is left alone. -/
theorem Memory.elem_storeElems_ne (m : Memory) (addr : Nat → Nat) (val : Nat → Elem) (b : Nat) :
    ∀ n, (∀ i < n, b ≠ addr i) → (m.storeElems addr val n).elem b = m.elem b
  | 0, _ => rfl
  | n + 1, h => by
    unfold Memory.storeElems
    rw [Memory.elem_setElem_ne _ _ (h n (by omega))]
    exact Memory.elem_storeElems_ne m addr val b n fun i hi => h i (by omega)

/-- Stores to distinct addresses (R149): each stored element reads back. -/
theorem Memory.elem_storeElems (m : Memory) (addr : Nat → Nat) (val : Nat → Elem) :
    ∀ n, (∀ i < n, ∀ j < n, addr i = addr j → i = j) → ∀ i < n,
      (m.storeElems addr val n).elem (addr i) = some (val i)
  | 0, _, i, hi => absurd hi (by omega)
  | n + 1, inj, i, hi => by
    unfold Memory.storeElems
    by_cases h : i = n
    · rw [h, Memory.elem_setElem_same]
    · rw [Memory.elem_setElem_ne _ _ fun e => h (inj i hi n (by omega) e)]
      exact Memory.elem_storeElems m addr val n (fun i hi j hj => inj i (by omega) j (by omega)) i (by omega)

theorem Memory.wf_storeElems {m : Memory} (h : m.wf = true) (addr : Nat → Nat) (val : Nat → Elem) :
    ∀ n, (m.storeElems addr val n).wf = true
  | 0 => h
  | n + 1 => Memory.wf_setElem (Memory.wf_storeElems h addr val n) _ _

/-- Stores of equal values give equal memories. -/
theorem Memory.storeElems_congr (m : Memory) (addr : Nat → Nat) {val val' : Nat → Elem} :
    ∀ n, (∀ i < n, val i = val' i) → m.storeElems addr val n = m.storeElems addr val' n
  | 0, _ => rfl
  | n + 1, h => by
    unfold Memory.storeElems
    rw [Memory.storeElems_congr m addr n fun i hi => h i (by omega), h n (by omega)]

/-- A read of a written element gives the element, whatever the free values (R69). -/
theorem State.readElem_of_written {s : State} {a : Nat} {e : Elem} (k : Nat) (h : s.dmem.elem a = some e) :
    s.readElem k a = e := by
  unfold State.readElem; rw [h]; rfl

end Sys2Proof.Machine
end

