-- ==== Sys2Proof/Laws/State.lean ====
section
/-! SUPPORT. What each named update of the state does to each field, one lemma per field, so that no later proof unfolds
a record update. -/

namespace Sys2Proof.Machine

/-! ### `errorComplete` -/

@[simp] theorem errorComplete_irqEn (e : CmdError) (s : State) : (errorComplete e s).irqEn = s.irqEn := rfl
@[simp] theorem errorComplete_busy (e : CmdError) (s : State) : (errorComplete e s).busy = false := rfl
@[simp] theorem errorComplete_done (e : CmdError) (s : State) : (errorComplete e s).done = true := rfl
@[simp] theorem errorComplete_errs (e : CmdError) (s : State) : (errorComplete e s).errs = true := rfl
@[simp] theorem errorComplete_dqsat (e : CmdError) (s : State) : (errorComplete e s).dqsat = s.dqsat := rfl
@[simp] theorem errorComplete_errCode (e : CmdError) (s : State) : (errorComplete e s).errCode = e.code := rfl
@[simp] theorem errorComplete_cmdLast (e : CmdError) (s : State) : (errorComplete e s).cmdLast = s.cmdLast := rfl
@[simp] theorem errorComplete_scale (e : CmdError) (s : State) : (errorComplete e s).scale = s.scale := rfl
@[simp] theorem errorComplete_shift (e : CmdError) (s : State) : (errorComplete e s).shift = s.shift := rfl
@[simp] theorem errorComplete_add (e : CmdError) (s : State) : (errorComplete e s).add = s.add := rfl
@[simp] theorem errorComplete_dst (e : CmdError) (s : State) : (errorComplete e s).dst = s.dst := rfl
@[simp] theorem errorComplete_src (e : CmdError) (s : State) : (errorComplete e s).src = s.src := rfl
@[simp] theorem errorComplete_len (e : CmdError) (s : State) : (errorComplete e s).len = s.len := rfl
@[simp] theorem errorComplete_nzcnt (e : CmdError) (s : State) : (errorComplete e s).nzcnt = s.nzcnt := rfl
@[simp] theorem errorComplete_row0 (e : CmdError) (s : State) : (errorComplete e s).row0 = s.row0 := rfl
@[simp] theorem errorComplete_row1 (e : CmdError) (s : State) : (errorComplete e s).row1 = s.row1 := rfl
@[simp] theorem errorComplete_row2 (e : CmdError) (s : State) : (errorComplete e s).row2 = s.row2 := rfl
@[simp] theorem errorComplete_row3 (e : CmdError) (s : State) : (errorComplete e s).row3 = s.row3 := rfl
@[simp] theorem errorComplete_dmem (e : CmdError) (s : State) : (errorComplete e s).dmem = s.dmem := rfl
@[simp] theorem errorComplete_rst (e : CmdError) (s : State) : (errorComplete e s).rst = s.rst := rfl
@[simp] theorem errorComplete_pending (e : CmdError) (s : State) : (errorComplete e s).pending = s.pending := rfl
@[simp] theorem errorComplete_replies (e : CmdError) (s : State) : (errorComplete e s).replies = s.replies := rfl
@[simp] theorem errorComplete_pollsLeft (e : CmdError) (s : State) : (errorComplete e s).pollsLeft = s.pollsLeft := rfl
@[simp] theorem errorComplete_accepted (e : CmdError) (s : State) : (errorComplete e s).accepted = s.accepted := rfl
@[simp] theorem errorComplete_memReads (e : CmdError) (s : State) : (errorComplete e s).memReads = s.memReads := rfl

/-! ### `complete` -/

@[simp] theorem complete_irqEn (s : State) : (complete s).irqEn = s.irqEn := rfl
@[simp] theorem complete_busy (s : State) : (complete s).busy = false := rfl
@[simp] theorem complete_done (s : State) : (complete s).done = true := rfl
@[simp] theorem complete_errs (s : State) : (complete s).errs = s.errs := rfl
@[simp] theorem complete_dqsat (s : State) : (complete s).dqsat = s.dqsat := rfl
@[simp] theorem complete_errCode (s : State) : (complete s).errCode = 0#4 := rfl
@[simp] theorem complete_cmdLast (s : State) : (complete s).cmdLast = s.cmdLast := rfl
@[simp] theorem complete_scale (s : State) : (complete s).scale = s.scale := rfl
@[simp] theorem complete_shift (s : State) : (complete s).shift = s.shift := rfl
@[simp] theorem complete_add (s : State) : (complete s).add = s.add := rfl
@[simp] theorem complete_dst (s : State) : (complete s).dst = s.dst := rfl
@[simp] theorem complete_src (s : State) : (complete s).src = s.src := rfl
@[simp] theorem complete_len (s : State) : (complete s).len = s.len := rfl
@[simp] theorem complete_nzcnt (s : State) : (complete s).nzcnt = s.nzcnt := rfl
@[simp] theorem complete_row0 (s : State) : (complete s).row0 = s.row0 := rfl
@[simp] theorem complete_row1 (s : State) : (complete s).row1 = s.row1 := rfl
@[simp] theorem complete_row2 (s : State) : (complete s).row2 = s.row2 := rfl
@[simp] theorem complete_row3 (s : State) : (complete s).row3 = s.row3 := rfl
@[simp] theorem complete_dmem (s : State) : (complete s).dmem = s.dmem := rfl
@[simp] theorem complete_rst (s : State) : (complete s).rst = s.rst := rfl
@[simp] theorem complete_pending (s : State) : (complete s).pending = s.pending := rfl
@[simp] theorem complete_replies (s : State) : (complete s).replies = s.replies := rfl
@[simp] theorem complete_pollsLeft (s : State) : (complete s).pollsLeft = s.pollsLeft := rfl
@[simp] theorem complete_accepted (s : State) : (complete s).accepted = s.accepted := rfl
@[simp] theorem complete_memReads (s : State) : (complete s).memReads = s.memReads := rfl

/-! ### `acknowledge` -/

@[simp] theorem acknowledge_irqEn (w : Word) (s : State) : (acknowledge w s).irqEn = s.irqEn := rfl
@[simp] theorem acknowledge_busy (w : Word) (s : State) : (acknowledge w s).busy = s.busy := rfl
@[simp] theorem acknowledge_done (w : Word) (s : State) : (acknowledge w s).done = (s.done && !w.getLsbD 1) := rfl
@[simp] theorem acknowledge_errs (w : Word) (s : State) : (acknowledge w s).errs = (s.errs && !w.getLsbD 2) := rfl
@[simp] theorem acknowledge_dqsat (w : Word) (s : State) : (acknowledge w s).dqsat = (s.dqsat && !w.getLsbD 3) := rfl
@[simp] theorem acknowledge_errCode (w : Word) (s : State) : (acknowledge w s).errCode = s.errCode := rfl
@[simp] theorem acknowledge_cmdLast (w : Word) (s : State) : (acknowledge w s).cmdLast = s.cmdLast := rfl
@[simp] theorem acknowledge_scale (w : Word) (s : State) : (acknowledge w s).scale = s.scale := rfl
@[simp] theorem acknowledge_shift (w : Word) (s : State) : (acknowledge w s).shift = s.shift := rfl
@[simp] theorem acknowledge_add (w : Word) (s : State) : (acknowledge w s).add = s.add := rfl
@[simp] theorem acknowledge_dst (w : Word) (s : State) : (acknowledge w s).dst = s.dst := rfl
@[simp] theorem acknowledge_src (w : Word) (s : State) : (acknowledge w s).src = s.src := rfl
@[simp] theorem acknowledge_len (w : Word) (s : State) : (acknowledge w s).len = s.len := rfl
@[simp] theorem acknowledge_nzcnt (w : Word) (s : State) : (acknowledge w s).nzcnt = s.nzcnt := rfl
@[simp] theorem acknowledge_row0 (w : Word) (s : State) : (acknowledge w s).row0 = s.row0 := rfl
@[simp] theorem acknowledge_row1 (w : Word) (s : State) : (acknowledge w s).row1 = s.row1 := rfl
@[simp] theorem acknowledge_row2 (w : Word) (s : State) : (acknowledge w s).row2 = s.row2 := rfl
@[simp] theorem acknowledge_row3 (w : Word) (s : State) : (acknowledge w s).row3 = s.row3 := rfl
@[simp] theorem acknowledge_dmem (w : Word) (s : State) : (acknowledge w s).dmem = s.dmem := rfl
@[simp] theorem acknowledge_rst (w : Word) (s : State) : (acknowledge w s).rst = s.rst := rfl
@[simp] theorem acknowledge_pending (w : Word) (s : State) : (acknowledge w s).pending = s.pending := rfl
@[simp] theorem acknowledge_replies (w : Word) (s : State) : (acknowledge w s).replies = s.replies := rfl
@[simp] theorem acknowledge_pollsLeft (w : Word) (s : State) : (acknowledge w s).pollsLeft = s.pollsLeft := rfl
@[simp] theorem acknowledge_accepted (w : Word) (s : State) : (acknowledge w s).accepted = s.accepted := rfl
@[simp] theorem acknowledge_memReads (w : Word) (s : State) : (acknowledge w s).memReads = s.memReads := rfl

/-! ### `accept` -/

@[simp] theorem accept_irqEn (w : Word) (s : State) : (accept w s).irqEn = s.irqEn := rfl
@[simp] theorem accept_busy (w : Word) (s : State) : (accept w s).busy = true := rfl
@[simp] theorem accept_done (w : Word) (s : State) : (accept w s).done = false := rfl
@[simp] theorem accept_errs (w : Word) (s : State) : (accept w s).errs = s.errs := rfl
@[simp] theorem accept_dqsat (w : Word) (s : State) : (accept w s).dqsat = s.dqsat := rfl
@[simp] theorem accept_errCode (w : Word) (s : State) : (accept w s).errCode = 0#4 := rfl
@[simp] theorem accept_cmdLast (w : Word) (s : State) : (accept w s).cmdLast = w := rfl
@[simp] theorem accept_scale (w : Word) (s : State) : (accept w s).scale = s.scale := rfl
@[simp] theorem accept_shift (w : Word) (s : State) : (accept w s).shift = s.shift := rfl
@[simp] theorem accept_add (w : Word) (s : State) : (accept w s).add = s.add := rfl
@[simp] theorem accept_dst (w : Word) (s : State) : (accept w s).dst = s.dst := rfl
@[simp] theorem accept_src (w : Word) (s : State) : (accept w s).src = s.src := rfl
@[simp] theorem accept_len (w : Word) (s : State) : (accept w s).len = s.len := rfl
@[simp] theorem accept_nzcnt (w : Word) (s : State) : (accept w s).nzcnt = s.nzcnt := rfl
@[simp] theorem accept_row0 (w : Word) (s : State) : (accept w s).row0 = s.row0 := rfl
@[simp] theorem accept_row1 (w : Word) (s : State) : (accept w s).row1 = s.row1 := rfl
@[simp] theorem accept_row2 (w : Word) (s : State) : (accept w s).row2 = s.row2 := rfl
@[simp] theorem accept_row3 (w : Word) (s : State) : (accept w s).row3 = s.row3 := rfl
@[simp] theorem accept_dmem (w : Word) (s : State) : (accept w s).dmem = s.dmem := rfl
@[simp] theorem accept_rst (w : Word) (s : State) : (accept w s).rst = s.rst := rfl
@[simp] theorem accept_pending (w : Word) (s : State) : (accept w s).pending = s.pending := rfl
@[simp] theorem accept_replies (w : Word) (s : State) : (accept w s).replies = s.replies := rfl
@[simp] theorem accept_pollsLeft (w : Word) (s : State) : (accept w s).pollsLeft = Config.pollsBeforeCompletion s.accepted := rfl
@[simp] theorem accept_accepted (w : Word) (s : State) : (accept w s).accepted = s.accepted + 1 := rfl
@[simp] theorem accept_memReads (w : Word) (s : State) : (accept w s).memReads = s.memReads := rfl

/-! ### `writeDmemWord` -/

@[simp] theorem writeDmemWord_irqEn (k : Nat) (w : Word) (s : State) : (writeDmemWord k w s).irqEn = s.irqEn := rfl
@[simp] theorem writeDmemWord_busy (k : Nat) (w : Word) (s : State) : (writeDmemWord k w s).busy = s.busy := rfl
@[simp] theorem writeDmemWord_done (k : Nat) (w : Word) (s : State) : (writeDmemWord k w s).done = s.done := rfl
@[simp] theorem writeDmemWord_errs (k : Nat) (w : Word) (s : State) : (writeDmemWord k w s).errs = s.errs := rfl
@[simp] theorem writeDmemWord_dqsat (k : Nat) (w : Word) (s : State) : (writeDmemWord k w s).dqsat = s.dqsat := rfl
@[simp] theorem writeDmemWord_errCode (k : Nat) (w : Word) (s : State) : (writeDmemWord k w s).errCode = s.errCode := rfl
@[simp] theorem writeDmemWord_cmdLast (k : Nat) (w : Word) (s : State) : (writeDmemWord k w s).cmdLast = s.cmdLast := rfl
@[simp] theorem writeDmemWord_scale (k : Nat) (w : Word) (s : State) : (writeDmemWord k w s).scale = s.scale := rfl
@[simp] theorem writeDmemWord_shift (k : Nat) (w : Word) (s : State) : (writeDmemWord k w s).shift = s.shift := rfl
@[simp] theorem writeDmemWord_add (k : Nat) (w : Word) (s : State) : (writeDmemWord k w s).add = s.add := rfl
@[simp] theorem writeDmemWord_dst (k : Nat) (w : Word) (s : State) : (writeDmemWord k w s).dst = s.dst := rfl
@[simp] theorem writeDmemWord_src (k : Nat) (w : Word) (s : State) : (writeDmemWord k w s).src = s.src := rfl
@[simp] theorem writeDmemWord_len (k : Nat) (w : Word) (s : State) : (writeDmemWord k w s).len = s.len := rfl
@[simp] theorem writeDmemWord_nzcnt (k : Nat) (w : Word) (s : State) : (writeDmemWord k w s).nzcnt = s.nzcnt := rfl
@[simp] theorem writeDmemWord_row0 (k : Nat) (w : Word) (s : State) : (writeDmemWord k w s).row0 = s.row0 := rfl
@[simp] theorem writeDmemWord_row1 (k : Nat) (w : Word) (s : State) : (writeDmemWord k w s).row1 = s.row1 := rfl
@[simp] theorem writeDmemWord_row2 (k : Nat) (w : Word) (s : State) : (writeDmemWord k w s).row2 = s.row2 := rfl
@[simp] theorem writeDmemWord_row3 (k : Nat) (w : Word) (s : State) : (writeDmemWord k w s).row3 = s.row3 := rfl
@[simp] theorem writeDmemWord_dmem (k : Nat) (w : Word) (s : State) : (writeDmemWord k w s).dmem = (s.dmem.setElem (2 * k) (w.extractLsb' 0 16)).setElem (2 * k + 1) (w.extractLsb' 16 16) := rfl
@[simp] theorem writeDmemWord_rst (k : Nat) (w : Word) (s : State) : (writeDmemWord k w s).rst = s.rst := rfl
@[simp] theorem writeDmemWord_pending (k : Nat) (w : Word) (s : State) : (writeDmemWord k w s).pending = s.pending := rfl
@[simp] theorem writeDmemWord_replies (k : Nat) (w : Word) (s : State) : (writeDmemWord k w s).replies = s.replies := rfl
@[simp] theorem writeDmemWord_pollsLeft (k : Nat) (w : Word) (s : State) : (writeDmemWord k w s).pollsLeft = s.pollsLeft := rfl
@[simp] theorem writeDmemWord_accepted (k : Nat) (w : Word) (s : State) : (writeDmemWord k w s).accepted = s.accepted := rfl
@[simp] theorem writeDmemWord_memReads (k : Nat) (w : Word) (s : State) : (writeDmemWord k w s).memReads = s.memReads := rfl

/-! ### `issued` -/

@[simp] theorem issued_irqEn (w : Word) (s : State) : (issued w s).irqEn = s.irqEn := rfl
@[simp] theorem issued_busy (w : Word) (s : State) : (issued w s).busy = true := rfl
@[simp] theorem issued_done (w : Word) (s : State) : (issued w s).done = false := rfl
@[simp] theorem issued_errs (w : Word) (s : State) : (issued w s).errs = s.errs := rfl
@[simp] theorem issued_dqsat (w : Word) (s : State) : (issued w s).dqsat = s.dqsat := rfl
@[simp] theorem issued_errCode (w : Word) (s : State) : (issued w s).errCode = 0#4 := rfl
@[simp] theorem issued_cmdLast (w : Word) (s : State) : (issued w s).cmdLast = w := rfl
@[simp] theorem issued_scale (w : Word) (s : State) : (issued w s).scale = s.scale := rfl
@[simp] theorem issued_shift (w : Word) (s : State) : (issued w s).shift = s.shift := rfl
@[simp] theorem issued_add (w : Word) (s : State) : (issued w s).add = s.add := rfl
@[simp] theorem issued_dst (w : Word) (s : State) : (issued w s).dst = s.dst := rfl
@[simp] theorem issued_src (w : Word) (s : State) : (issued w s).src = s.src := rfl
@[simp] theorem issued_len (w : Word) (s : State) : (issued w s).len = s.len := rfl
@[simp] theorem issued_nzcnt (w : Word) (s : State) : (issued w s).nzcnt = s.nzcnt := rfl
@[simp] theorem issued_row0 (w : Word) (s : State) : (issued w s).row0 = s.row0 := rfl
@[simp] theorem issued_row1 (w : Word) (s : State) : (issued w s).row1 = s.row1 := rfl
@[simp] theorem issued_row2 (w : Word) (s : State) : (issued w s).row2 = s.row2 := rfl
@[simp] theorem issued_row3 (w : Word) (s : State) : (issued w s).row3 = s.row3 := rfl
@[simp] theorem issued_dmem (w : Word) (s : State) : (issued w s).dmem = s.dmem := rfl
@[simp] theorem issued_rst (w : Word) (s : State) : (issued w s).rst = false := rfl
@[simp] theorem issued_pending (w : Word) (s : State) : (issued w s).pending = s.pending := rfl
@[simp] theorem issued_replies (w : Word) (s : State) : (issued w s).replies = s.replies := rfl
@[simp] theorem issued_pollsLeft (w : Word) (s : State) : (issued w s).pollsLeft = 0 := rfl
@[simp] theorem issued_accepted (w : Word) (s : State) : (issued w s).accepted = s.accepted := rfl
@[simp] theorem issued_memReads (w : Word) (s : State) : (issued w s).memReads = s.memReads := rfl

/-! ### `resetEvent` -/

@[simp] theorem resetEvent_irqEn (s : State) : (resetEvent s).irqEn = false := rfl
@[simp] theorem resetEvent_busy (s : State) : (resetEvent s).busy = false := rfl
@[simp] theorem resetEvent_done (s : State) : (resetEvent s).done = false := rfl
@[simp] theorem resetEvent_errs (s : State) : (resetEvent s).errs = false := rfl
@[simp] theorem resetEvent_dqsat (s : State) : (resetEvent s).dqsat = false := rfl
@[simp] theorem resetEvent_errCode (s : State) : (resetEvent s).errCode = 0#4 := rfl
@[simp] theorem resetEvent_cmdLast (s : State) : (resetEvent s).cmdLast = 0#32 := rfl
@[simp] theorem resetEvent_scale (s : State) : (resetEvent s).scale = 0#32 := rfl
@[simp] theorem resetEvent_shift (s : State) : (resetEvent s).shift = 0#32 := rfl
@[simp] theorem resetEvent_add (s : State) : (resetEvent s).add = 0#32 := rfl
@[simp] theorem resetEvent_dst (s : State) : (resetEvent s).dst = 0#32 := rfl
@[simp] theorem resetEvent_src (s : State) : (resetEvent s).src = 0#32 := rfl
@[simp] theorem resetEvent_len (s : State) : (resetEvent s).len = 0#32 := rfl
@[simp] theorem resetEvent_nzcnt (s : State) : (resetEvent s).nzcnt = 0#32 := rfl
@[simp] theorem resetEvent_row0 (s : State) : (resetEvent s).row0 = 0#64 := rfl
@[simp] theorem resetEvent_row1 (s : State) : (resetEvent s).row1 = 0#64 := rfl
@[simp] theorem resetEvent_row2 (s : State) : (resetEvent s).row2 = 0#64 := rfl
@[simp] theorem resetEvent_row3 (s : State) : (resetEvent s).row3 = 0#64 := rfl
@[simp] theorem resetEvent_dmem (s : State) : (resetEvent s).dmem = [] := rfl
@[simp] theorem resetEvent_rst (s : State) : (resetEvent s).rst = false := rfl
@[simp] theorem resetEvent_pending (s : State) : (resetEvent s).pending = if s.held then [] else s.pending := rfl
@[simp] theorem resetEvent_replies (s : State) : (resetEvent s).replies = s.replies := rfl
@[simp] theorem resetEvent_pollsLeft (s : State) : (resetEvent s).pollsLeft = 0 := rfl
@[simp] theorem resetEvent_accepted (s : State) : (resetEvent s).accepted = s.accepted := rfl
@[simp] theorem resetEvent_memReads (s : State) : (resetEvent s).memReads = s.memReads := rfl

/-! ### `setRow` -/

@[simp] theorem setRow_irqEn (s : State) (r : Nat) (v : Row) : (s.setRow r v).irqEn = s.irqEn := by
  unfold State.setRow; split <;> rfl
@[simp] theorem setRow_busy (s : State) (r : Nat) (v : Row) : (s.setRow r v).busy = s.busy := by
  unfold State.setRow; split <;> rfl
@[simp] theorem setRow_done (s : State) (r : Nat) (v : Row) : (s.setRow r v).done = s.done := by
  unfold State.setRow; split <;> rfl
@[simp] theorem setRow_errs (s : State) (r : Nat) (v : Row) : (s.setRow r v).errs = s.errs := by
  unfold State.setRow; split <;> rfl
@[simp] theorem setRow_dqsat (s : State) (r : Nat) (v : Row) : (s.setRow r v).dqsat = s.dqsat := by
  unfold State.setRow; split <;> rfl
@[simp] theorem setRow_errCode (s : State) (r : Nat) (v : Row) : (s.setRow r v).errCode = s.errCode := by
  unfold State.setRow; split <;> rfl
@[simp] theorem setRow_cmdLast (s : State) (r : Nat) (v : Row) : (s.setRow r v).cmdLast = s.cmdLast := by
  unfold State.setRow; split <;> rfl
@[simp] theorem setRow_scale (s : State) (r : Nat) (v : Row) : (s.setRow r v).scale = s.scale := by
  unfold State.setRow; split <;> rfl
@[simp] theorem setRow_shift (s : State) (r : Nat) (v : Row) : (s.setRow r v).shift = s.shift := by
  unfold State.setRow; split <;> rfl
@[simp] theorem setRow_add (s : State) (r : Nat) (v : Row) : (s.setRow r v).add = s.add := by
  unfold State.setRow; split <;> rfl
@[simp] theorem setRow_dst (s : State) (r : Nat) (v : Row) : (s.setRow r v).dst = s.dst := by
  unfold State.setRow; split <;> rfl
@[simp] theorem setRow_src (s : State) (r : Nat) (v : Row) : (s.setRow r v).src = s.src := by
  unfold State.setRow; split <;> rfl
@[simp] theorem setRow_len (s : State) (r : Nat) (v : Row) : (s.setRow r v).len = s.len := by
  unfold State.setRow; split <;> rfl
@[simp] theorem setRow_nzcnt (s : State) (r : Nat) (v : Row) : (s.setRow r v).nzcnt = s.nzcnt := by
  unfold State.setRow; split <;> rfl
@[simp] theorem setRow_dmem (s : State) (r : Nat) (v : Row) : (s.setRow r v).dmem = s.dmem := by
  unfold State.setRow; split <;> rfl
@[simp] theorem setRow_rst (s : State) (r : Nat) (v : Row) : (s.setRow r v).rst = s.rst := by
  unfold State.setRow; split <;> rfl
@[simp] theorem setRow_pending (s : State) (r : Nat) (v : Row) : (s.setRow r v).pending = s.pending := by
  unfold State.setRow; split <;> rfl
@[simp] theorem setRow_replies (s : State) (r : Nat) (v : Row) : (s.setRow r v).replies = s.replies := by
  unfold State.setRow; split <;> rfl
@[simp] theorem setRow_pollsLeft (s : State) (r : Nat) (v : Row) : (s.setRow r v).pollsLeft = s.pollsLeft := by
  unfold State.setRow; split <;> rfl
@[simp] theorem setRow_accepted (s : State) (r : Nat) (v : Row) : (s.setRow r v).accepted = s.accepted := by
  unfold State.setRow; split <;> rfl
@[simp] theorem setRow_memReads (s : State) (r : Nat) (v : Row) : (s.setRow r v).memReads = s.memReads := by
  unfold State.setRow; split <;> rfl

/-- The row written reads back, and the other rows read as before (R34). -/
theorem row_setRow (s : State) (r q : Nat) (v : Row) (hr : r < 4) (hq : q < 4) :
    (s.setRow r v).row q = if q = r then v else s.row q := by
  interval_cases r <;> interval_cases q <;> rfl

end Sys2Proof.Machine
end

