-- ==== Sys2Proof/Laws/Exec.lean ====
section
/-! SUPPORT. What executing a command can do, what a step can do, and what a command's stores leave: each said once, to be
cited instead of unfolding `exec` and `step`. -/

namespace Sys2Proof.Machine

/-! ## Executing a command -/

/-- The effect a command has when every check passes (R191). -/
def effectOf (i : Instr) : State → State :=
  match i with
  | .nop => fun s => s
  | .quant => quantEffect
  | .dequant => dequantEffect
  | .abs => absEffect
  | .addsign => addsignEffect
  | .scanb ord slog2 => scanbEffect (scanTable ord) slog2
  | .scanr ord => scanrEffect (scanTable ord)
  | .iscanb ord slog2 => iscanbEffect (scanTable ord) slog2

/-- Every command runs its checks, its effect and its completion (R191). -/
theorem exec_eq_runCommand (i : Instr) (s : State) : exec i s = runCommand (check i s) (effectOf i) s := by
  cases i with
  | nop => unfold exec execNop effectOf; rfl
  | quant => unfold exec execQuant effectOf; rfl
  | dequant => unfold exec execDequant effectOf; rfl
  | abs => unfold exec execAbs effectOf; rfl
  | addsign => unfold exec execAddsign effectOf; rfl
  | scanb ord slog2 => unfold exec execScanb effectOf; rfl
  | scanr ord => unfold exec execScanr effectOf; rfl
  | iscanb ord slog2 => unfold exec execIscanb effectOf; rfl

theorem runCommand_of_error {e : CmdError} (effect : State → State) (s : State) :
    runCommand (some e) effect s = .next (errorComplete e s) := rfl

theorem runCommand_of_pass (effect : State → State) (s : State) :
    runCommand none effect s = .next (complete (effect s)) := rfl

/-- A command whose checks pass has its effect and completes (R192). -/
theorem exec_of_pass {i : Instr} {s : State} (h : check i s = none) : exec i s = .next (complete (effectOf i s)) := by
  rw [exec_eq_runCommand, h, runCommand_of_pass]

/-- A command with a failing check ends in the error completion (R210). -/
theorem exec_of_error {i : Instr} {s : State} {e : CmdError} (h : check i s = some e) :
    exec i s = .next (errorComplete e s) := by
  rw [exec_eq_runCommand, h, runCommand_of_error]

/-- All that executing a command can do. -/
theorem exec_cases {i : Instr} {s t : State} (h : exec i s = .next t) :
    (∃ e, check i s = some e ∧ t = errorComplete e s) ∨ (check i s = none ∧ t = complete (effectOf i s)) := by
  cases hc : check i s with
  | none => exact Or.inr ⟨rfl, by rw [exec_of_pass hc] at h; exact (Host.Outcome.next.inj h).symm⟩
  | some e => exact Or.inl ⟨e, rfl, by rw [exec_of_error hc] at h; exact (Host.Outcome.next.inj h).symm⟩

/-! ## What a step can do -/

/-- The engine's turn (R191). -/
theorem step_of_engineMoves {s : State} (h : EngineMoves s) : step s = engineStep s := by
  obtain ⟨hr, hb, hp⟩ := h
  unfold step eventStep
  rw [hr, hb]
  show busyStep s = engineStep s
  unfold busyStep
  split
  · rfl
  · rename_i a rest heq
    rw [if_pos]
    rcases hp with hp | ⟨a', rest', hp, hs⟩ | hp
    · rw [hp] at heq; cases heq
    · rw [hp] at heq; cases heq; exact Or.inl hs
    · exact Or.inr hp

/-- The host's turn (R64). -/
theorem step_of_hostMoves {s : State} {a : BusAccess} {rest : List BusAccess} (h : HostMoves s a rest) :
    step s = hostAccess a (s.withRest rest) := by
  obtain ⟨hr, hp, hb⟩ := h
  unfold step eventStep
  rw [hr]
  rcases hb with hb | ⟨hs, hl⟩
  · rw [hb]
    show idleStep s = _
    unfold idleStep
    rw [hp]; rfl
  · cases hbusy : s.busy with
    | false =>
      show idleStep s = _
      unfold idleStep
      rw [hp]; rfl
    | true =>
      show busyStep s = _
      unfold busyStep
      rw [hp]
      show (if a.stalls = true ∨ s.pollsLeft = 0 then engineStep s else hostStep a rest s) = _
      rw [if_neg (by rw [hs]; simp; omega)]; rfl

theorem step_of_reset {s : State} (h : s.rst = true) : step s = .next (resetEvent s) := by
  unfold step eventStep; rw [h]; rfl

/-- Idle: nothing to do (R229). -/
theorem step_of_idle {s : State} (hr : s.rst = false) (hb : s.busy = false) (hp : s.pending = []) :
    step s = .next s := by
  unfold step eventStep idleStep; rw [hr, hb, hp]; rfl

/-- Someone moves: reset, the engine, the host, or nobody because there is nothing to do. -/
theorem who_moves (s : State) :
    s.rst = true ∨ EngineMoves s ∨ (∃ a rest, HostMoves s a rest) ∨
      (s.rst = false ∧ s.busy = false ∧ s.pending = []) := by
  cases hr : s.rst with
  | true => exact Or.inl rfl
  | false =>
    cases hb : s.busy with
    | false =>
      cases hp : s.pending with
      | nil => exact Or.inr (Or.inr (Or.inr ⟨rfl, rfl, rfl⟩))
      | cons a rest => exact Or.inr (Or.inr (Or.inl ⟨a, rest, hr, hp, Or.inl hb⟩))
    | true =>
      cases hp : s.pending with
      | nil => exact Or.inr (Or.inl ⟨hr, hb, Or.inl hp⟩)
      | cons a rest =>
        cases hs : a.stalls with
        | true => exact Or.inr (Or.inl ⟨hr, hb, Or.inr (Or.inl ⟨a, rest, hp, hs⟩)⟩)
        | false =>
          rcases Nat.eq_zero_or_pos s.pollsLeft with hl | hl
          · exact Or.inr (Or.inl ⟨hr, hb, Or.inr (Or.inr hl)⟩)
          · exact Or.inr (Or.inr (Or.inl ⟨a, rest, hr, hp, Or.inr ⟨hs, hl⟩⟩))

/-- What an accepted host access does. -/
theorem hostAccess_of_accepted {a : BusAccess} (s : State) (h : a.accepted = true) :
    hostAccess a s = .next (accessEffect a s) := by
  unfold BusAccess.accepted at h
  simp only [Bool.and_eq_true, beq_iff_eq] at h
  unfold hostAccess
  rw [if_neg (by simpa using h.1), if_neg (by simpa using h.2)]

/-- If a host access answers a next state, it was accepted. -/
theorem accepted_of_hostAccess {a : BusAccess} {s t : State} (h : hostAccess a s = .next t) :
    a.accepted = true ∧ t = accessEffect a s := by
  unfold hostAccess at h
  split at h
  · cases h
  · split at h
    · cases h
    · rename_i h1 h2
      exact ⟨by simp_all [BusAccess.accepted], (Host.Outcome.next.inj h).symm⟩

/-- All that a step can do. -/
theorem step_cases {s t : State} (h : step s = .next t) :
    (s.rst = true ∧ t = resetEvent s) ∨
    (EngineMoves s ∧ ∃ i, Sys2Proof.decode s.cmdLast = .ok i ∧ exec i s = .next t) ∨
    (EngineMoves s ∧ (∃ e, Sys2Proof.decode s.cmdLast = .error e) ∧ t = errorComplete .illegal s) ∨
    (∃ a rest, HostMoves s a rest ∧ a.accepted = true ∧ t = accessEffect a (s.withRest rest)) ∨
    (s.rst = false ∧ s.busy = false ∧ s.pending = [] ∧ t = s) := by
  rcases who_moves s with hr | he | ⟨a, rest, hh⟩ | ⟨hr, hb, hp⟩
  · rw [step_of_reset hr] at h
    exact Or.inl ⟨hr, (Host.Outcome.next.inj h).symm⟩
  · rw [step_of_engineMoves he] at h
    unfold engineStep at h
    cases hd : Sys2Proof.decode s.cmdLast with
    | ok i => rw [hd] at h; exact Or.inr (Or.inl ⟨he, i, rfl, h⟩)
    | error e =>
      rw [hd] at h
      exact Or.inr (Or.inr (Or.inl ⟨he, ⟨e, rfl⟩, (Host.Outcome.next.inj h).symm⟩))
  · rw [step_of_hostMoves hh] at h
    obtain ⟨ha, ht⟩ := accepted_of_hostAccess h
    exact Or.inr (Or.inr (Or.inr (Or.inl ⟨a, rest, hh, ha, ht⟩)))
  · rw [step_of_idle hr hb hp] at h
    exact Or.inr (Or.inr (Or.inr (Or.inr ⟨hr, hb, hp, (Host.Outcome.next.inj h).symm⟩)))

/-! ## What a command reads and stores -/

/-- The reads of one event are a snapshot of DMEM (R78). -/
theorem snapshot_readElem (s : State) (n : Nat) (addr idx : Nat → Nat) :
    Snapshot s.dmem n addr (fun i => s.readElem (idx i) (addr i)) := fun i _ _ h =>
  State.readElem_of_written (idx i) h

/-- Stores to distinct addresses store exactly their elements (R149). -/
theorem storesExactly_storeElems (m : Memory) (n : Nat) (addr : Nat → Nat) (val : Nat → Elem)
    (inj : ∀ i < n, ∀ j < n, addr i = addr j → i = j) : StoresExactly m (m.storeElems addr val n) n addr val :=
  ⟨Memory.elem_storeElems m addr val n inj, fun b h => Memory.byte_storeElems_ne m addr val b n h⟩

theorem linearAddr_inj {b i j : Nat} (h : linearAddr b i = linearAddr b j) : i = j := by
  unfold linearAddr at h; omega

theorem stridedAddr_eq (b slog2 p : Nat) : stridedAddr b slog2 p = b + p / 4 * 2 ^ slog2 + p % 4 := by
  unfold stridedAddr
  rw [Nat.shiftRight_eq_div_pow, Nat.shiftLeft_eq, show (3 : Nat) = 2 ^ 2 - 1 from rfl, Nat.and_two_pow_sub_one_eq_mod]

/-- The elements of a CG stand at distinct addresses when the stride is at least 4 (R149). -/
theorem stridedAddr_inj {b slog2 p q : Nat} (hs : 2 ≤ slog2) (h : stridedAddr b slog2 p = stridedAddr b slog2 q) :
    p = q := by
  rw [stridedAddr_eq, stridedAddr_eq] at h
  have hm : 4 ≤ 2 ^ slog2 := by
    calc 4 = 2 ^ 2 := rfl
      _ ≤ 2 ^ slog2 := Nat.pow_le_pow_right (by omega) hs
  have e : p % 4 + 2 ^ slog2 * (p / 4) = q % 4 + 2 ^ slog2 * (q / 4) := by
    rw [Nat.mul_comm _ (p / 4), Nat.mul_comm _ (q / 4)]; omega
  have hd : p / 4 = q / 4 := by
    have h1 := congrArg (· / 2 ^ slog2) e
    simpa [Nat.add_mul_div_left, Nat.div_eq_of_lt (show p % 4 < 2 ^ slog2 by omega),
      Nat.div_eq_of_lt (show q % 4 < 2 ^ slog2 by omega)] using h1
  rw [hd] at e
  omega

/-! ## The canonical form of DMEM under each operation on the state -/

theorem wf_effectOf {s : State} (h : s.dmem.wf = true) (i : Instr) : (effectOf i s).dmem.wf = true := by
  cases i <;> simp only [effectOf, quantEffect_dmem, dequantEffect_dmem, absEffect_dmem, addsignEffect_dmem,
    scanbEffect_dmem, scanrEffect_dmem, iscanbEffect_dmem, Memory.wf_storeElems, h]

theorem wf_writeDmemWord {s : State} (h : s.dmem.wf = true) (k : Nat) (w : Word) :
    (writeDmemWord k w s).dmem.wf = true := by
  rw [writeDmemWord_dmem]; exact Memory.wf_setElem (Memory.wf_setElem h _ _) _ _

/-! ## The state in which a host access takes effect -/

@[simp] theorem withRest_irqEn (s : State) (rest : List BusAccess) : (s.withRest rest).irqEn = s.irqEn := rfl
@[simp] theorem withRest_busy (s : State) (rest : List BusAccess) : (s.withRest rest).busy = s.busy := rfl
@[simp] theorem withRest_done (s : State) (rest : List BusAccess) : (s.withRest rest).done = s.done := rfl
@[simp] theorem withRest_errs (s : State) (rest : List BusAccess) : (s.withRest rest).errs = s.errs := rfl
@[simp] theorem withRest_dqsat (s : State) (rest : List BusAccess) : (s.withRest rest).dqsat = s.dqsat := rfl
@[simp] theorem withRest_errCode (s : State) (rest : List BusAccess) : (s.withRest rest).errCode = s.errCode := rfl
@[simp] theorem withRest_cmdLast (s : State) (rest : List BusAccess) : (s.withRest rest).cmdLast = s.cmdLast := rfl
@[simp] theorem withRest_scale (s : State) (rest : List BusAccess) : (s.withRest rest).scale = s.scale := rfl
@[simp] theorem withRest_shift (s : State) (rest : List BusAccess) : (s.withRest rest).shift = s.shift := rfl
@[simp] theorem withRest_add (s : State) (rest : List BusAccess) : (s.withRest rest).add = s.add := rfl
@[simp] theorem withRest_dst (s : State) (rest : List BusAccess) : (s.withRest rest).dst = s.dst := rfl
@[simp] theorem withRest_src (s : State) (rest : List BusAccess) : (s.withRest rest).src = s.src := rfl
@[simp] theorem withRest_len (s : State) (rest : List BusAccess) : (s.withRest rest).len = s.len := rfl
@[simp] theorem withRest_nzcnt (s : State) (rest : List BusAccess) : (s.withRest rest).nzcnt = s.nzcnt := rfl
@[simp] theorem withRest_row0 (s : State) (rest : List BusAccess) : (s.withRest rest).row0 = s.row0 := rfl
@[simp] theorem withRest_row1 (s : State) (rest : List BusAccess) : (s.withRest rest).row1 = s.row1 := rfl
@[simp] theorem withRest_row2 (s : State) (rest : List BusAccess) : (s.withRest rest).row2 = s.row2 := rfl
@[simp] theorem withRest_row3 (s : State) (rest : List BusAccess) : (s.withRest rest).row3 = s.row3 := rfl
@[simp] theorem withRest_dmem (s : State) (rest : List BusAccess) : (s.withRest rest).dmem = s.dmem := rfl
@[simp] theorem withRest_rst (s : State) (rest : List BusAccess) : (s.withRest rest).rst = s.rst := rfl
@[simp] theorem withRest_replies (s : State) (rest : List BusAccess) : (s.withRest rest).replies = s.replies := rfl
@[simp] theorem withRest_accepted (s : State) (rest : List BusAccess) : (s.withRest rest).accepted = s.accepted := rfl
@[simp] theorem withRest_memReads (s : State) (rest : List BusAccess) : (s.withRest rest).memReads = s.memReads := rfl
@[simp] theorem withRest_pending (s : State) (rest : List BusAccess) : (s.withRest rest).pending = rest := rfl
@[simp] theorem withRest_pollsLeft (s : State) (rest : List BusAccess) :
    (s.withRest rest).pollsLeft = s.pollsLeft - 1 := rfl

/-! ## Runs -/

theorem run_zero (s : State) : Host.Core.run Sys2Proof.core 0 s = .next s := rfl

/-- A run goes on from the next state. -/
theorem run_succ_of_next (M : Host.Core) (n : Nat) {s t : M.State} (h : M.step s = .next t) :
    M.run (n + 1) s = M.run n t := by
  rw [show M.run (n + 1) s = _ from Host.Core.run.eq_2 M s n, h]

/-- A run of QSCAN goes on from the next state. -/
theorem run_succ (n : Nat) {s t : State} (h : step s = .next t) :
    Host.Core.run Sys2Proof.core (n + 1) s = Host.Core.run Sys2Proof.core n t :=
  run_succ_of_next Sys2Proof.core n h

end Sys2Proof.Machine
end

