-- ==== Sys2Proof/Laws/HostProgram.lean ====
section
/-! SUPPORT. All that a step of a host program with its device can do. -/

namespace Sys2Proof.Machine

/-! ### `request` and `deliver` -/

@[simp] theorem request_program (h : HostRun) (a : BusAccess) (w : Awaiting) : (h.request a w).program = h.program := rfl
@[simp] theorem request_pos (h : HostRun) (a : BusAccess) (w : Awaiting) : (h.request a w).pos = h.pos := rfl
@[simp] theorem request_names (h : HostRun) (a : BusAccess) (w : Awaiting) : (h.request a w).names = h.names := rfl
@[simp] theorem request_awaiting (h : HostRun) (a : BusAccess) (w : Awaiting) : (h.request a w).awaiting = some w := rfl
@[simp] theorem request_device (h : HostRun) (a : BusAccess) (w : Awaiting) :
    (h.request a w).device = { h.device with pending := [a], replies := [] } := rfl

@[simp] theorem deliver_program (h : HostRun) (w : Awaiting) (r : Reply) : (h.deliver w r).program = h.program := by
  unfold HostRun.deliver; split <;> rfl
@[simp] theorem deliver_pos (h : HostRun) (w : Awaiting) (r : Reply) : (h.deliver w r).pos = h.pos + 1 := by
  unfold HostRun.deliver; split <;> rfl
@[simp] theorem deliver_awaiting (h : HostRun) (w : Awaiting) (r : Reply) : (h.deliver w r).awaiting = none := by
  unfold HostRun.deliver; split <;> rfl
@[simp] theorem deliver_device (h : HostRun) (w : Awaiting) (r : Reply) : (h.deliver w r).device = h.device := by
  unfold HostRun.deliver; split <;> rfl

/-! ### `deviceStep` and `branch` -/

/-- The device moves, and nothing else of the run changes. -/
theorem deviceStep_of_next {h : HostRun} {d : State} (hd : step h.device = .next d) :
    h.deviceStep = .next { h with device := d } := by
  rw [HostRun.deviceStep, hd]

theorem next_of_deviceStep {h h' : HostRun} (hs : h.deviceStep = .next h') :
    ∃ d, step h.device = .next d ∧ h' = { h with device := d } := by
  cases hd : step h.device with
  | next d => rw [deviceStep_of_next hd] at hs; exact ⟨d, rfl, (Host.Outcome.next.inj hs).symm⟩
  | fault e => rw [HostRun.deviceStep, hd] at hs; cases hs
  | refused e => rw [HostRun.deviceStep, hd] at hs; cases hs

/-- With nothing more to go before it, the command executes before the branch (R252). -/
theorem branch_of_due {h : HostRun} {target : Nat} (hb : h.device.busy = true) (hp : h.device.pollsLeft = 0) :
    h.branch target = h.deviceStep := by
  rw [HostRun.branch, if_pos ⟨hb, hp⟩]

theorem branch_of_not_due {h : HostRun} {target : Nat} (hn : ¬ (h.device.busy = true ∧ h.device.pollsLeft = 0)) :
    h.branch target =
      .next { h with pos := target, device := { h.device with pollsLeft := h.device.pollsLeft - 1 } } := by
  rw [HostRun.branch, if_neg hn]

/-! ### `step` -/

theorem hostRun_step_of_reset {h : HostRun} (hr : h.device.rst = true) : h.step = h.deviceStep := by
  rw [HostRun.step, if_pos hr]

theorem hostRun_step_of_running {h : HostRun} (hr : h.device.rst = false) : h.step = h.operate := by
  rw [HostRun.step, if_neg (by simp [hr])]

/-- All that a step of a host program can do: the device moves, an answer arrives, the host asks for an access, or it
branches. -/
theorem hostRun_step_cases {h h' : HostRun} (hs : h.step = .next h') :
    (∃ d, step h.device = .next d ∧ h' = { h with device := d }) ∨
    (∃ w r rs, h.awaiting = some w ∧ h.device.replies = r :: rs ∧ h' = h.deliver w r) ∨
    (∃ off v, h.awaiting = none ∧ h.program[h.pos]? = some (.wr off v) ∧ h' = h.request (.write off 4 v) .written) ∨
    (∃ off name, h.awaiting = none ∧ h.program[h.pos]? = some (.rd off name) ∧
      h' = h.request (.read off 4) (.named name)) ∨
    (∃ target, h.awaiting = none ∧ ¬ (h.device.busy = true ∧ h.device.pollsLeft = 0) ∧
      h' = { h with pos := target, device := { h.device with pollsLeft := h.device.pollsLeft - 1 } }) := by
  have viaBranch : ∀ target, h.awaiting = none → h.branch target = .next h' →
      (∃ d, step h.device = .next d ∧ h' = { h with device := d }) ∨
        (h.awaiting = none ∧ ¬ (h.device.busy = true ∧ h.device.pollsLeft = 0) ∧
          h' = { h with pos := target, device := { h.device with pollsLeft := h.device.pollsLeft - 1 } }) := by
    intro target ha hb
    by_cases due : h.device.busy = true ∧ h.device.pollsLeft = 0
    · rw [branch_of_due due.1 due.2] at hb; exact Or.inl (next_of_deviceStep hb)
    · rw [branch_of_not_due due] at hb; exact Or.inr ⟨ha, due, (Host.Outcome.next.inj hb).symm⟩
  cases hr : h.device.rst with
  | true => rw [hostRun_step_of_reset hr] at hs; exact Or.inl (next_of_deviceStep hs)
  | false =>
    rw [hostRun_step_of_running hr] at hs
    unfold HostRun.operate at hs
    split at hs
    · rename_i w ha
      split at hs
      · rename_i r rs hrep
        exact Or.inr (Or.inl ⟨w, r, rs, ha, hrep, (Host.Outcome.next.inj hs).symm⟩)
      · exact Or.inl (next_of_deviceStep hs)
    · rename_i ha
      split at hs
      · exact Or.inl (next_of_deviceStep hs)
      · exact Or.inl (next_of_deviceStep hs)
      · rename_i off v hop
        exact Or.inr (Or.inr (Or.inl ⟨off, v, ha, hop, (Host.Outcome.next.inj hs).symm⟩))
      · rename_i off name hop
        exact Or.inr (Or.inr (Or.inr (Or.inl ⟨off, name, ha, hop, (Host.Outcome.next.inj hs).symm⟩)))
      · rcases viaBranch _ ha hs with hd | hb
        · exact Or.inl hd
        · exact Or.inr (Or.inr (Or.inr (Or.inr ⟨_, hb⟩)))
      · rcases viaBranch _ ha hs with hd | hb
        · exact Or.inl hd
        · exact Or.inr (Or.inr (Or.inr (Or.inr ⟨_, hb⟩)))

/-! ### `run` -/

theorem hostRun_zero (h : HostRun) : HostRun.run 0 h = .next h := rfl

/-- A run of a host program goes on from the next state. -/
theorem hostRun_succ (n : Nat) {h h' : HostRun} (hs : h.step = .next h') : HostRun.run (n + 1) h = HostRun.run n h' := by
  rw [HostRun.run, hs]

end Sys2Proof.Machine
end

