-- ==== Sys2Proof/Laws/Inputs.lean ====
section
/-! SUPPORT. Runs in which the reset input may be asserted at any moment. -/

namespace Sys2Proof.Machine

/-! ### `sample` -/

@[simp] theorem sample_toDevice (r : Bool) (s : State) : (s.sample r).toDevice = s.toDevice := rfl
@[simp] theorem sample_rst (r : Bool) (s : State) : (s.sample r).rst = (s.rst || r) := rfl
@[simp] theorem sample_pending (r : Bool) (s : State) : (s.sample r).pending = s.pending := rfl
@[simp] theorem sample_replies (r : Bool) (s : State) : (s.sample r).replies = s.replies := rfl
@[simp] theorem sample_pollsLeft (r : Bool) (s : State) : (s.sample r).pollsLeft = s.pollsLeft := rfl
@[simp] theorem sample_accepted (r : Bool) (s : State) : (s.sample r).accepted = s.accepted := rfl
@[simp] theorem sample_memReads (r : Bool) (s : State) : (s.sample r).memReads = s.memReads := rfl

/-- An input that is not asserted changes nothing. -/
theorem sample_false (s : State) : s.sample false = s := by
  unfold State.sample; rw [Bool.or_false]

/-- The reset input does not bear on the invariant. -/
theorem stateInv_sample {s : State} (h : StateInv s) (r : Bool) : StateInv (s.sample r) := { h with }

/-! ### `runInputs` -/

theorem runInputs_nil (s : State) : runInputs [] s = .next s := rfl

/-- A run over inputs goes on from the next state. -/
theorem runInputs_cons {r : Bool} (rs : List Bool) {s t : State} (h : step (s.sample r) = .next t) :
    runInputs (r :: rs) s = runInputs rs t := by
  rw [runInputs, stepInput, h]

/-- A run over inputs, cut in two. -/
theorem runInputs_append (rs qs : List Bool) {s t : State} (h : runInputs rs s = .next t) :
    runInputs (rs ++ qs) s = runInputs qs t := by
  induction rs generalizing s with
  | nil => rw [runInputs_nil] at h; rw [List.nil_append, Host.Outcome.next.inj h]
  | cons r rs ih =>
    cases hs : step (s.sample r) with
    | next u => rw [runInputs_cons rs hs] at h; rw [List.cons_append, runInputs_cons (rs ++ qs) hs, ih h]
    | fault e => rw [runInputs, stepInput, hs] at h; cases h
    | refused e => rw [runInputs, stepInput, hs] at h; cases h

/-- An asserted input makes the reset event the next one (R240). -/
theorem stepInput_true (s : State) : stepInput true s = .next (resetEvent (s.sample true)) :=
  step_of_reset (Bool.or_true s.rst)

end Sys2Proof.Machine
end

