-- ==== Sys2Proof/Laws/PerInstr.lean ====
section
/-! SUPPORT. Facts about every command as syntax, one lemma per constructor of `Instr`. -/

namespace Sys2Proof.Laws

/-- A command's word is one of the low 256 words, and its OP field is the command's number in R81. -/
def EncodedShort.Statement (i : Instr) : Prop :=
  (encode i).toNat < 0x100 ∧
    opField (encode i) = (match i with
      | .nop => 0#4
      | .quant => 1#4
      | .dequant => 2#4
      | .abs => 3#4
      | .addsign => 4#4
      | .scanb _ _ => 5#4
      | .scanr _ => 6#4
      | .iscanb _ _ => 7#4)

/-- The word of fields below 8, 2 and 16 is below 256, and its OP field is the one put in. -/
theorem wordOfFields_short (g : BitVec 3) (o : BitVec 1) (op : BitVec 4) :
    (wordOfFields g o op).toNat < 0x100 ∧ opField (wordOfFields g o op) = op := by
  revert g o op; decide

theorem EncodedShort.nop : EncodedShort.Statement .nop := wordOfFields_short _ _ _
theorem EncodedShort.quant : EncodedShort.Statement .quant := wordOfFields_short _ _ _
theorem EncodedShort.dequant : EncodedShort.Statement .dequant := wordOfFields_short _ _ _
theorem EncodedShort.abs : EncodedShort.Statement .abs := wordOfFields_short _ _ _
theorem EncodedShort.addsign : EncodedShort.Statement .addsign := wordOfFields_short _ _ _
theorem EncodedShort.scanb (ord : ScanOrder) (slog2 : Nat) : EncodedShort.Statement (.scanb ord slog2) :=
  wordOfFields_short _ _ _
theorem EncodedShort.scanr (ord : ScanOrder) : EncodedShort.Statement (.scanr ord) := wordOfFields_short _ _ _
theorem EncodedShort.iscanb (ord : ScanOrder) (slog2 : Nat) : EncodedShort.Statement (.iscanb ord slog2) :=
  wordOfFields_short _ _ _

end Sys2Proof.Laws
end

