-- ==== Sys2Proof/Tests/Slice0.lean ====
section
/-! SUPPORT. Tests whose expected results come from spec/95_test_vectors.md or are worked out by hand from the rules. -/

namespace Sys2Proof.Tests

-- Each `decide +kernel` waits for every proof before it: one at a time keeps the number of threads small.
set_option Elab.async false

open Sys2Proof Sys2Proof.Machine

/-! ## Helpers -/

/-- DMEM with the values `vs` written from element `base` on. -/
def memOf : Nat → List Int → Memory → Memory
  | _, [], m => m
  | base, v :: vs, m => memOf (base + 1) vs (m.setElem base (trunc16 v))

/-- The reset state with one stretch of DMEM written. -/
def dataAt (base : Nat) (vs : List Int) : State := { State.reset with dmem := memOf base vs [] }

/-- Elements `a .. a+n-1` as integers. -/
def elems (s : State) (a n : Nat) : List (Option Int) := (List.range n).map fun i => (s.dmem.elem (a + i)).map sext16

/-- A property of the next state; false where there is none. -/
def nextSat (o : Host.Outcome State Fault Refusal) (p : State → Bool) : Bool :=
  match o with
  | .next t => p t
  | .fault _ => false
  | .refused _ => false

/-! ## WellFormed refuses what no word carries (R83) -/

theorem test_wellFormed_refuses_scanb_8 : (Instr.scanb .xy 8).wellFormed = false := by decide
theorem test_wellFormed_refuses_iscanb_8 : (Instr.iscanb .yx 8).wellFormed = false := by decide
theorem test_wellFormed_accepts_scanb_7 : (Instr.scanb .yx 7).wellFormed = true := by decide

/-! ## Words written out bit by bit from R80 and R95 -/

theorem test_decode_nop : decode 0b00000000000000000000000000000000#32 = .ok .nop := by decide
theorem test_decode_quant : decode 0b00000000000000000000000000000001#32 = .ok .quant := by decide
theorem test_decode_dequant : decode 0b00000000000000000000000000000010#32 = .ok .dequant := by decide
theorem test_decode_abs : decode 0b00000000000000000000000000000011#32 = .ok .abs := by decide
theorem test_decode_addsign : decode 0b00000000000000000000000000000100#32 = .ok .addsign := by decide
/-- 0x000000D5 is SCANB.YX 6 (part 9). -/
theorem test_decode_scanb : decode 0b00000000000000000000000011010101#32 = .ok (.scanb .yx 6) := by decide
theorem test_decode_scanr : decode 0b00000000000000000000000000010110#32 = .ok (.scanr .yx) := by decide
/-- 0x000000F7 is ISCANB.YX 7 (part 9). -/
theorem test_decode_iscanb : decode 0b00000000000000000000000011110111#32 = .ok (.iscanb .yx 7) := by decide
/-- The ILLEGAL words of part 9: E1, E2, E3, E5, 0x00000036, 0x80000001. -/
theorem test_decode_illegal :
    decode 0x00000101#32 = .error .reservedBits ∧ decode 0x00000011#32 = .error .unusedField ∧
      decode 0x00000008#32 = .error .reservedOp ∧ decode 0x00000026#32 = .error .unusedField ∧
      decode 0x00000036#32 = .error .unusedField ∧ decode 0x80000001#32 = .error .reservedBits := by decide
theorem test_decodeTableWord : decodeTableWord 32 0x45 = some (.scanb .xy 2) ∧ decodeTableWord 32 0x100 = none := by
  decide

/-! ## NOP -/

/-- ST1: from reset, once the NOP has completed, STATUS is 0x00000002. -/
theorem test_nop_status :
    nextSat (step (State.reset.withFetchWord 32 0)) (fun t => t.statusWord == 0x00000002#32) = true := by decide

/-! ## QUANT -/

/-- Q1. -/
def q1 : State :=
  { dataAt 0 [100, -50, 0, 25, 0, 0, 0, 0, 0, 0, 0, 0, 0, 0, 0, 0] with
    scale := 16384#32, shift := 14#32, add := 8192#32, len := 16#32 }

theorem test_quant_q1 :
    nextSat (exec .quant q1) (fun t => elems t 0 4 == [some 100, some (-50), some 0, some 25] && t.nzcnt == 3#32) = true := by
  decide +kernel

/-- Q9, Q11, Q5, Q18, Q8: the largest intermediate, a sum above 2^31 − 1, a zero, a truncated negative, the signed minimum. -/
theorem test_quant_elements :
    quantLevel 65535 31 2147483647 (trunc16 (-32768)) = trunc16 (-1) ∧
      quantLevel 1 0 2147483647 (trunc16 32767) = trunc16 32767 ∧
      quantLevel 65535 0 2147483647 (trunc16 0) = trunc16 0 ∧
      quantLevel 1 1 0 (trunc16 (-3)) = trunc16 (-1) ∧
      quantLevel 1 0 0 (trunc16 (-32768)) = trunc16 (-32768) := by decide

/-! ## DEQUANT -/

/-- DQ25: two clamped elements set DQSAT; STATUS = 0x0000000A. -/
theorem test_dequant_dq25 :
    nextSat (exec .dequant
        { dataAt 0 [32767, 1, 0, 0, 0, 0, 0, 0, 0, 0, 0, 0, 0, 0, 0, 0] with scale := 65535#32, len := 16#32 })
      (fun t => elems t 0 3 == [some 32767, some 32767, some 0] && t.statusWord == 0x0000000A#32) = true := by
  decide +kernel

/-- DQ3, DQ8, DQ12, DQ15, DQ20, DQ22 before the clamp. -/
theorem test_dequant_elements :
    dequantExact 1 1 0 (trunc16 (-3)) = -2 ∧ dequantExact 1 1 2 (trunc16 0) = 1 ∧
      dequantExact 65535 16 32768 (trunc16 (-1)) = -1 ∧ dequantExact 5 3 4 (trunc16 (-7)) = -4 ∧
      dequantExact 1 31 0 (trunc16 (-32768)) = -1 ∧ dequantExact 0 0 2147483647 (trunc16 (-1)) = 2147483647 := by
  decide

/-! ## ABS and ADDSIGN -/

/-- A2: overlapping ranges, SRC = 4, DST = 0. -/
theorem test_abs_a2 :
    nextSat (exec .abs
        { dataAt 0 ([-8, -7, -6, -5, -4, -3, -2, -1, 0, 1, 2, 3, 4, 5, 6, 7] ++ List.replicate 16 (-32768)) with
          src := 4#32, len := 16#32 })
      (fun t => elems t 0 17 ==
        [some 4, some 3, some 2, some 1, some 0, some 1, some 2, some 3, some 4, some 5, some 6, some 7, some 32767,
          some 32767, some 32767, some 32767, some (-32768)]) = true := by
  decide +kernel

/-- AS2: negative magnitudes; NZCNT = 5. -/
theorem test_addsign_as2 :
    nextSat (exec .addsign
        { dataAt 0 ([-1, -1, 1, 1, -5, 0] ++ List.replicate 10 0 ++ [-32768, 32767, -32768, -3, 32767, -32768]
            ++ List.replicate 10 0) with
          src := 16#32, len := 16#32 })
      (fun t => elems t 0 7 ==
        [some 32767, some (-32767), some (-32768), some (-3), some (-32767), some 0, some 0] && t.nzcnt == 5#32) = true := by
  decide +kernel

/-! ## The scanner, with the default tables of R141 -/

/-- S2: SCANB.YX 3 from a sub-window of a block of row stride 8; columns 4 to 7 are not read. -/
theorem test_scanb_s2 :
    elems (scanbEffect defaultYX 3
        { dataAt 12 [100, 101, 102, 103, -7, -7, -7, -7, 110, 111, 112, 113, -7, -7, -7, -7, 120, 121, 122, 123,
            -7, -7, -7, -7, 130, 131, 132, 133, -7, -7, -7, -7] with src := 12#32, dst := 100#32 }) 100 16 =
      [100, 110, 101, 102, 111, 120, 130, 121, 112, 103, 113, 122, 131, 132, 123, 133].map some := by
  decide +kernel

/-- S4: SCANR.XY with negative lanes. -/
theorem test_scanr_s4 :
    elems (scanrEffect defaultXY
        { State.reset with
          row0 := 0x0004FFFD0002FFFF#64, row2 := 0x0000000000000005#64, row3 := 0x8000000000000000#64,
          dst := 200#32 }) 200 16 =
      [-1, 2, 0, 5, 0, -3, 4, 0, 0, 0, 0, 0, 0, 0, 0, -32768].map some := by
  decide +kernel

/-- S6: ISCANB.YX 4 into a strided block; the gaps stay as they were. -/
theorem test_iscanb_s6 :
    elems (iscanbEffect defaultYX 4
        { dataAt 0 [1000, 1001, 1002, 1003, 1004, 1005, 1006, 1007, 1008, 1009, 1010, 1011, 1012, 1013, 1014, 1015] with
          dst := 64#32 }) 64 20 =
      [some 1000, some 1002, some 1003, some 1009, none, none, none, none, none, none, none, none, none, none, none, none,
        some 1001, some 1004, some 1008, some 1010] := by
  decide +kernel

/-- R140 and R142 for the defaults: bijections, distinct, and INV_XY as R142 lists it. -/
theorem test_default_tables_legal : TablesLegal defaultTable := by decide
theorem test_default_inverse_xy :
    ∀ k : Fin 16, (![0, 1, 5, 6, 2, 4, 7, 12, 3, 8, 11, 13, 9, 10, 14, 15] : Fin 16 → Fin 16) (defaultXY k) = k := by
  decide

/-! ## Errors (part 9) -/

/-- The error vectors' registers: SCALE = 1, LEN = 16, NZCNT = 7. -/
def errBase : State := { State.reset with scale := 1#32, len := 16#32, nzcnt := 7#32 }

/-- STATUS after the word has executed. -/
def statusIs (s : State) (w : Nat) (v : Word) : Bool :=
  nextSat (step (s.withFetchWord 32 w)) fun t => t.statusWord == v && t.nzcnt == 7#32 && t.cmdLast == BitVec.ofNat 32 w

/-- E1, E7, E9, E10, E11, E12, E16, E20. -/
theorem test_errors_report_their_code :
    statusIs errBase 0x101 0x00000106#32 = true ∧
      statusIs { errBase with len := 8#32 } 0x1 0x00000206#32 = true ∧
      statusIs { errBase with shift := 32#32 } 0x2 0x00000306#32 = true ∧
      statusIs { errBase with scale := 65536#32 } 0x1 0x00000406#32 = true ∧
      statusIs { errBase with add := 0x80000000#32 } 0x1 0x00000406#32 = true ∧
      statusIs errBase 0x25 0x00000506#32 = true ∧
      statusIs { errBase with dst := 0xFFFFFFF0#32 } 0x1 0x00000606#32 = true ∧
      statusIs { errBase with src := 7805#32 } 0xF5 0x00000606#32 = true := by decide

/-- E24, E25, E26, E28: priority. E17 and E18 (NZCNT becomes 0): the base past the end with LEN = 0. -/
theorem test_errors_report_the_first :
    statusIs { errBase with len := 8#32, shift := 40#32 } 0x1 0x00000206#32 = true ∧
      statusIs { errBase with shift := 40#32, scale := 70000#32 } 0x2 0x00000306#32 = true ∧
      statusIs { errBase with add := 0xFFFFFFFF#32, dst := 9000#32 } 0x1 0x00000406#32 = true ∧
      statusIs { errBase with src := 0xFFFFFFFF#32 } 0x35 0x00000506#32 = true ∧
      statusIs { errBase with dst := 8193#32, len := 0#32 } 0x1 0x00000606#32 = true ∧
      nextSat (step (State.withFetchWord { errBase with dst := 8192#32, len := 0#32 } 32 1))
        (fun t => t.statusWord == 0x00000002#32 && t.nzcnt == 0#32) = true := by decide

/-! ## The bus (part 8) -/

/-- ST5: CTRL keeps bit 0. -/
theorem test_bus_ctrl :
    nextSat (step { State.reset with pending := [.write 0x0000#15 4 0xFFFFFFFF#32] })
      (fun t => t.ctrlWord == 0x00000001#32 && t.replies == [.ok]) = true := by decide

/-- B9: a write at 0x4FFC reaches elements 2046 and 2047. -/
theorem test_bus_dmem_b9 :
    nextSat (step { State.reset with pending := [.write 0x4FFC#15 4 0x12345678#32] })
      (fun t => elems t 2046 2 == [some 22136, some 4660] && t.dmem.byte 0x4FFC == some 0x78#8) = true := by decide

/-- B2 and B3: bus errors. -/
theorem test_bus_errors :
    (match step { State.reset with pending := [.read 0x4001#15 1] } with
      | .fault r => decide (r = .busErrorSize 1) | _ => false) = true ∧
    (match step { State.reset with pending := [.read 0x4002#15 4] } with
      | .fault r => decide (r = .busErrorAlignment 0x4002#15) | _ => false) = true := by decide

/-- B5: NZCNT ignores a write; ST3: a W1C write of DONE drops it. -/
theorem test_bus_readonly_and_w1c :
    nextSat (step { State.reset with nzcnt := 3#32, pending := [.write 0x0024#15 4 9#32] }) (fun t => t.nzcnt == 3#32) = true ∧
      nextSat (step { State.reset with irqEn := true, done := true, pending := [.write 0x0004#15 4 2#32] })
        (fun t => t.statusWord == 0#32 && !t.irq) = true := by decide

/-- A stalled access waits for the pending command (R194): B8's read of NZCNT is still to be made when QUANT completes. -/
theorem test_stall :
    nextSat (step { State.withFetchWord q1 32 1 with pending := [.read 0x0024#15 4] })
      (fun t => !t.busy && t.nzcnt == 3#32 && t.pending == [.read 0x0024#15 4]) = true := by decide +kernel

/-- R96: `issue` of a `SCANB.YX 2` writes 0x00000055 to CMD (P2). -/
theorem test_issue : issueOp (.scanb .yx 2) = [.wr 0x0008#15 0x00000055#32] := by decide

/-! ## Witnesses: for each statement with hypotheses, a state and operands that meet them together -/

/-- An accepted command with no host access. -/
def running (w : Nat) (s : State) : State := s.withFetchWord 32 w

theorem engineMoves_running (w : Nat) (s : State) (h : s.pending = []) : EngineMoves (running w s) :=
  ⟨rfl, rfl, Or.inl h⟩

/-- The next step executes an accepted NOP. -/
theorem step_running_nop (s : State) (h : s.pending = []) : step (running 0 s) = .next (complete (running 0 s)) := by
  have hd : decode (running 0 s).cmdLast = .ok .nop := by show decode (tableWord 32 0) = .ok .nop; decide
  rw [step_of_engineMoves (engineMoves_running 0 s h)]
  unfold engineStep
  rw [hd]
  exact exec_of_pass rfl

/-- Elements 0 and 1 written. -/
def twoElems : Memory := memOf 0 [5, -1] []

theorem twoElems_paired : Memory.paired twoElems :=
  Memory.paired_setElem (Memory.paired_setElem (fun _ => rfl) 0 (trunc16 5)) 1 (trunc16 (-1))

/-- A pending command, with data in DMEM, that meets the invariant. -/
def invState (w : Nat) : State := running w { State.reset with dmem := twoElems, nzcnt := 8192#32 }

theorem invState_inv (w : Nat) : StateInv (invState w) where
  memWf := by show Memory.wf twoElems = true; decide
  memInWindow := by show ∀ c ∈ twoElems, 0x4000 ≤ c.1 ∧ c.1 < 0x8000; decide
  memPaired := twoElems_paired
  countBound := by show (8192#32).toNat ≤ 8192; decide
  codeBound := by show (0#4).toNat ≤ 6; decide
  busyCleared := fun _ => ⟨rfl, rfl⟩

theorem witness_DecodeOfEncode :
    (Instr.scanb .xy 0).wellFormed = true ∧ (Instr.iscanb .yx 7).wellFormed = true := by decide

/-- For EncodeOfDecode, and the clauses of OpcodeMapDecodes. -/
theorem witness_OpcodeMapDecodes :
    decode 0xF7#32 = .ok (.iscanb .yx 7) ∧ decode 0x16#32 = .ok (.scanr .yx) ∧ decode 0x08#32 = .error .reservedOp ∧
      decode 0x35#32 = .ok (.scanb .yx 1) ∧ check (.scanb .yx 1) State.reset = some .stride ∧
      decode 0x45#32 = .ok (.scanb .xy 2) ∧ check (.scanb .xy 2) State.reset = none := by decide

theorem witness_ResetTakesPrecedence :
    ∃ s : State, s.rst = true ∧ s.pending = [.read 0x0024#15 4] ∧ s.busy = true ∧
      (BusAccess.read 0x0024#15 4).stalls = true ∧ (BusAccess.read 0x0004#15 4).stalls = false :=
  ⟨{ State.reset with rst := true, busy := true, pending := [.read 0x0024#15 4] }, by decide⟩

theorem witness_StepKeepsInv :
    StateInv (invState 0) ∧ ∃ t, step (invState 0) = .next t :=
  ⟨invState_inv 0, _, step_running_nop _ rfl⟩

/-- The three ways in which the engine moves. -/
theorem witness_StepRunsDecodedCommand :
    (EngineMoves (running 1 q1) ∧ decode (running 1 q1).cmdLast = .ok .quant) ∧
      EngineMoves { running 1 q1 with pending := [.read 0x4000#15 4], pollsLeft := 3 } ∧
      EngineMoves { running 1 q1 with pending := [.read 0x0004#15 4], pollsLeft := 0 } :=
  ⟨⟨engineMoves_running 1 q1 rfl, by decide⟩, ⟨rfl, rfl, Or.inr (Or.inl ⟨_, _, rfl, by decide⟩)⟩,
    ⟨rfl, rfl, Or.inr (Or.inr rfl)⟩⟩

theorem witness_CommandAcceptance :
    ∃ s : State, s.rst = false ∧ s.busy = false ∧ s.done = true ∧ s.pending = [.write 0x0008#15 4 0x1#32] ∧
      ∃ u : State, u.rst = false ∧ u.busy = true ∧ u.pending = [.write 0x0008#15 4 0x1#32] :=
  ⟨{ State.reset with done := true, pending := [.write 0x0008#15 4 0x1#32] }, rfl, rfl, rfl, rfl,
    { State.reset with busy := true, pending := [.write 0x0008#15 4 0x1#32] }, rfl, rfl, rfl⟩

/-- The boundary offsets of the stalling ranges (R22, R35, R63), and an access that is a bus error. -/
theorem witness_HeldAccessIsReleased :
    ([0x08, 0x24, 0x40, 0x5C, 0x4000, 0x7FFC].all fun o => (BusAccess.read (BitVec.ofNat 15 o) 4).stalls) = true ∧
      ([0x00, 0x04, 0x28, 0x3C, 0x60, 0x3FFC].all fun o => !(BusAccess.read (BitVec.ofNat 15 o) 4).stalls) = true ∧
      (BusAccess.read 0x4002#15 4).stalls = false ∧
      ∃ s : State, s.rst = false ∧ s.busy = true ∧ s.pending = [.read 0x7FFC#15 4] :=
  ⟨by decide, by decide, by decide, { State.reset with busy := true, pending := [.read 0x7FFC#15 4] }, rfl, rfl, rfl⟩

theorem witness_CommandCompletesInTime :
    ∃ s : State, s.rst = false ∧ s.busy = true ∧ s.pollsLeft = 2 ∧ s.pending ≠ [] ∧
      ∀ a ∈ s.pending, a.accepted = true :=
  ⟨{ State.reset with busy := true, pollsLeft := 2, pending := [.read 0x0004#15 4, .write 0x0000#15 4 1#32] }, by decide⟩

/-- Each code is the lowest that fails of some pending word. -/
theorem witness_LowestFailingCheckIsReported :
    (Fails (running 0x101 errBase) 1 ∧ EngineMoves (running 0x101 errBase)) ∧
      Fails (running 0x1 { errBase with len := 8#32, shift := 32#32 }) 2 ∧
      (Fails (running 0x2 { errBase with shift := 32#32 }) 3 ∧ ¬ Fails (running 0x2 { errBase with shift := 32#32 }) 2) ∧
      (Fails (running 0x1 { errBase with add := 0x80000000#32 }) 4 ∧
        ¬ Fails (running 0x1 { errBase with shift := 31#32 }) 3) ∧
      (Fails (running 0x37 errBase) 5 ∧ ¬ Fails (running 0x47 errBase) 5) ∧
      (Fails (running 0x16 { errBase with dst := 8177#32 }) 6 ∧ ¬ Fails (running 0x16 { errBase with dst := 8176#32 }) 6) ∧
      ∀ n, ¬ Fails (running 0 errBase) n := by
  refine ⟨⟨trivial, engineMoves_running _ _ rfl⟩, ?_, ⟨?_, ?_⟩, ⟨Or.inr ?_, ?_⟩, ⟨?_, ?_⟩, ⟨?_, ?_⟩, fun n h => h⟩
  · show (8#32).toNat % 16 ≠ 0; decide
  · show 31 < (32#32).toNat; decide
  · show ¬ (16#32).toNat % 16 ≠ 0; decide
  · show 2 ^ 31 ≤ (0x80000000#32).toNat; decide
  · show ¬ 31 < (31#32).toNat; decide
  · show 1 < 2; decide
  · show ¬ 2 < 2; decide
  · show 8192 < (8177#32).toNat + 16; decide
  · show ¬ 8192 < (8176#32).toNat + 16; decide

theorem witness_IllegalWordReportsCodeOne :
    EngineMoves (running 0x11 State.reset) ∧ decode (running 0x11 State.reset).cmdLast = .error .unusedField :=
  ⟨engineMoves_running _ _ rfl, by decide⟩

/-- QUANT and DEQUANT: the largest legal operands, all of DMEM, and LEN = 0 at the end of DMEM. -/
theorem witness_ScaledLegal :
    ScaledLegal { State.reset with
        scale := 65535#32, shift := 31#32, add := 0x7FFFFFFF#32, dst := 8176#32, len := 16#32 } ∧
      ScaledLegal { State.reset with len := 8192#32 } ∧ ScaledLegal { State.reset with dst := 8192#32 } ∧
      ScaledLegal q1 := by
  decide

/-- ABS and ADDSIGN. -/
theorem witness_HelperLegal :
    HelperLegal { State.reset with dst := 8176#32, src := 8176#32, len := 16#32 } ∧
      HelperLegal { State.reset with dst := 8192#32, src := 8192#32, scale := 70000#32, shift := 40#32 } := by
  decide

/-- SCANB, SCANR and ISCANB at the smallest and the largest stride, against the end of DMEM. -/
theorem witness_ScanLegal :
    ScanbLegal 2 { State.reset with src := 8176#32, dst := 8176#32 } ∧
      ScanbLegal 7 { State.reset with src := 7804#32, dst := 8176#32 } ∧
      ScanrLegal { State.reset with dst := 8176#32 } ∧
      IscanbLegal 2 { State.reset with src := 8176#32, dst := 8176#32 } ∧
      IscanbLegal 7 { State.reset with src := 8176#32, dst := 7804#32 } := by
  decide

/-- For the frames over all commands: a command that completes without error and one that ends in an error, from a state
with both sticky bits set. -/
theorem witness_CommandsKeepHostRegisters :
    (∃ t, exec .quant { q1 with errs := true, dqsat := true } = .next t ∧ t.errCode = 0#4) ∧
      ∃ t, exec .quant { q1 with errs := true, dqsat := true, len := 8#32 } = .next t ∧ t.errCode ≠ 0#4 :=
  ⟨⟨_, exec_of_pass (by decide), rfl⟩, ⟨_, exec_of_error (e := .len) (by decide), by decide⟩⟩

/-- `b` may be any byte but those of the 16 elements written. -/
theorem witness_CommandsWriteOnlyTheirFootprint :
    ∃ b, ∀ a ∈ commandWrites .quant q1, b ≠ loOffset a ∧ b ≠ hiOffset a :=
  ⟨0x4020, by decide⟩

theorem witness_CommandsDependOnlyOnTheirInputs :
    ∃ s' : State, q1.scale = s'.scale ∧ q1.shift = s'.shift ∧ q1.add = s'.add ∧ q1.dst = s'.dst ∧ q1.src = s'.src ∧
      q1.len = s'.len ∧ q1.row0 = s'.row0 ∧ q1.row1 = s'.row1 ∧ q1.row2 = s'.row2 ∧ q1.row3 = s'.row3 ∧
      s'.nzcnt ≠ q1.nzcnt ∧ s'.dmem ≠ q1.dmem ∧
      (∀ a ∈ commandReads .quant q1, ∃ e, q1.dmem.elem a = some e ∧ s'.dmem.elem a = some e) ∧
      (∃ t, exec .quant q1 = .next t ∧ t.errCode = 0#4) ∧ ∃ t', exec .quant s' = .next t' := by
  refine ⟨{ q1 with nzcnt := 9#32, memReads := 5, dmem := q1.dmem.setElem 100 7#16 }, rfl, rfl, rfl, rfl, rfl, rfl, rfl,
    rfl, rfl, rfl, by decide, by decide +kernel, fun a ha => ?_, ⟨_, exec_of_pass (by decide), rfl⟩,
    ⟨_, exec_of_pass (by decide)⟩⟩
  have h : ∀ a ∈ commandReads .quant q1,
      (q1.dmem.elem a).isSome = true ∧ (q1.dmem.setElem 100 7#16).elem a = q1.dmem.elem a := by decide +kernel
  obtain ⟨e, he⟩ := Option.isSome_iff_exists.mp (h a ha).1
  exact ⟨e, he, (h a ha).2.trans he⟩

/-- For the statements on QUANT's and DEQUANT's arithmetic. -/
theorem witness_QuantFitsUnsigned32 :
    (65535#32).toNat ≤ 65535 ∧ (0x7FFFFFFF#32).toNat < 2 ^ 31 ∧ 31 ≤ 31 ∧ (65535 : Nat) ≤ 65535 ∧
      (0 : Int) ≤ 2147483647 ∧ (2147483647 : Int) < 2 ^ 31 := by decide

/-- One element below saturation and one in it. -/
theorem witness_QuantIsOddUnlessSaturated :
    ((0x7FFF#16 : Elem) ≠ 0x8000#16 ∧ (|(0x7FFF#16 : Elem).toInt| * (1 : Nat) + 0) / 2 ^ 0 < 32768) ∧
      ((1#16 : Elem) ≠ 0x8000#16 ∧ 32768 ≤ (|(1#16 : Elem).toInt| * (32768 : Nat) + 0) / 2 ^ 0 ∧
        0 < (1#16 : Elem).toInt) := by
  decide

theorem witness_QuantKeepsZeroBlock :
    ∃ s : State, ScaledLegal s ∧ s.len = 16#32 ∧ ∀ i < s.len.toNat, s.dmem.elem (s.dst.toNat + i) = some 0#16 :=
  ⟨{ dataAt 0 (List.replicate 16 0) with len := 16#32 }, by decide, rfl, by decide +kernel⟩

/-- A DEQUANT of written elements that leaves DQSAT clear. -/
theorem witness_DequantExactWhenNotSaturated :
    ∃ s : State, ScaledLegal s ∧ s.len = 16#32 ∧ s.dmem.elem 1 = some (trunc16 (-3)) ∧
      nextSat (exec .dequant s) (fun t => !t.dqsat) = true :=
  ⟨{ dataAt 0 [100, -3, 0, 25, 0, 0, 0, 0, 0, 0, 0, 0, 0, 0, 0, 0] with scale := 2#32, len := 16#32 }, by decide, rfl,
    by decide +kernel, by decide +kernel⟩

/-- Sixteen elements. -/
def sixteen : List Int := [-32768, -7, 32767, 0, 1, -1, 2, -2, 3, -3, 4, -4, 5, -5, 6, -6]

/-- The sixteen elements by index. -/
def sixteenAt (i : Nat) : Elem := trunc16 (sixteen.getD i 0)

theorem witness_AbsThenAddsignRestores :
    ∃ (s : State) (d : Word) (x : Nat → Elem),
      s.len.toNat % 16 = 0 ∧ s.len = 16#32 ∧ s.dst = s.src ∧ s.src.toNat + s.len.toNat ≤ 8192 ∧
      d.toNat + s.len.toNat ≤ 8192 ∧
      (d.toNat + s.len.toNat ≤ s.src.toNat ∨ s.src.toNat + s.len.toNat ≤ d.toNat) ∧
      ∀ i < s.len.toNat, s.dmem.elem (d.toNat + i) = some (x i) ∧ s.dmem.elem (s.src.toNat + i) = some (x i) :=
  ⟨{ dataAt 0 (sixteen ++ sixteen) with dst := 16#32, src := 16#32, len := 16#32 }, 0#32, sixteenAt, by decide, rfl, rfl,
    by decide, by decide, by decide, by decide +kernel⟩

theorem witness_AddsignInPlaceIsAbs :
    ∃ (s : State) (x : Nat → Elem), HelperLegal s ∧ s.len = 16#32 ∧ s.src = s.dst ∧
      ∀ i < s.len.toNat, s.dmem.elem (s.dst.toNat + i) = some (x i) :=
  ⟨{ dataAt 0 sixteen with len := 16#32 }, sixteenAt, by decide, rfl, rfl, by decide +kernel⟩

theorem witness_RasterPositions : (0 : Nat) < 16 ∧ (15 : Nat) < 16 := by decide

/-- For ScanKeepsEveryValue and ScanThenInverseScanRestores, the second buffer against the end of DMEM. -/
theorem witness_ScanThenInverseScanRestores :
    ∃ (s : State) (x : Nat → Elem) (y : Word), ScanbLegal 2 s ∧ y.toNat + 3 * 2 ^ 2 + 4 ≤ 8192 ∧
      ∀ p < 16, s.dmem.elem (stridedAddr s.src.toNat 2 p) = some (x p) :=
  ⟨{ dataAt 0 sixteen with dst := 32#32 }, sixteenAt, 8176#32, by decide, by decide, by decide +kernel⟩

/-- The rows 1, 2, 3, 4 · 5, 6, 7, 8 · … and the block that holds their lanes. -/
theorem witness_ScanrMatchesScanb :
    ∃ s : State, ScanbLegal 2 s ∧ s.row0 = 0x0004000300020001#64 ∧
      ∀ p < 16, s.dmem.elem (stridedAddr s.src.toNat 2 p) = some (s.rowLane p) :=
  ⟨{ dataAt 0 [1, 2, 3, 4, 5, 6, 7, 8, 9, 10, 11, 12, 13, 14, 15, 16] with
      dst := 32#32
      row0 := 0x0004000300020001#64
      row1 := 0x0008000700060005#64
      row2 := 0x000C000B000A0009#64
      row3 := 0x0010000F000E000D#64 }, by decide, rfl, by decide +kernel⟩

theorem witness_DistinctElementsScanDifferently :
    ∃ (s : State) (x : Nat → Elem), ScanbLegal 2 s ∧
      (∀ p < 16, s.dmem.elem (stridedAddr s.src.toNat 2 p) = some (x p)) ∧
      ∀ p < 16, ∀ q < 16, x p = x q → p = q :=
  ⟨{ dataAt 0 sixteen with dst := 32#32 }, sixteenAt, by decide, by decide +kernel, by decide +kernel⟩

/-- The host moves while no command is pending, and while one is pending that is not held and has accesses to go. -/
theorem witness_HostMoves (a : BusAccess) (h : a.stalls = false) :
    HostMoves { State.reset with pending := [a] } a [] ∧
      HostMoves { State.reset with busy := true, pollsLeft := 1, pending := [a] } a [] :=
  ⟨⟨rfl, rfl, Or.inl rfl⟩, ⟨rfl, rfl, Or.inr ⟨h, Nat.one_pos⟩⟩⟩

theorem witness_CtrlHoldsIrqEnable :
    HostMoves { State.reset with busy := true, pollsLeft := 1, pending := [.write 0x0000#15 4 1#32] }
        (.write 0x0000#15 4 1#32) [] ∧
      HostMoves { State.reset with irqEn := true, pending := [.read 0x0000#15 4] } (.read 0x0000#15 4) [] :=
  ⟨(witness_HostMoves _ (by decide)).2, ⟨rfl, rfl, Or.inl rfl⟩⟩

/-- For StatusReadsItsFields and ReadsChangeNothing. -/
theorem witness_StatusReadsItsFields :
    HostMoves { State.reset with busy := true, pollsLeft := 1, dqsat := true, pending := [.read 0x0004#15 4] }
        (.read 0x0004#15 4) [] ∧
      HostMoves { State.reset with pending := [.read 0x7FFC#15 4] } (.read 0x7FFC#15 4) [] ∧
      (0x7FFC#15).toNat % 4 = 0 :=
  ⟨⟨rfl, rfl, Or.inr ⟨by decide, Nat.one_pos⟩⟩, ⟨rfl, rfl, Or.inl rfl⟩, by decide⟩

theorem witness_StatusWriteClearsOnes :
    HostMoves { State.reset with
        done := true, errs := true, dqsat := true, errCode := 6#4, pending := [.write 0x0004#15 4 0xE#32] }
      (.write 0x0004#15 4 0xE#32) [] :=
  ⟨rfl, rfl, Or.inl rfl⟩

theorem witness_CmdAndNzcntReadTheirValues :
    ∃ s u : State, s.rst = false ∧ s.busy = false ∧ s.pending = [.read 0x0008#15 4] ∧
      u.rst = false ∧ u.busy = false ∧ u.pending = [.read 0x0024#15 4] :=
  ⟨{ State.reset with pending := [.read 0x0008#15 4] }, { State.reset with pending := [.read 0x0024#15 4] }, by decide⟩

/-- At the first and the last offset. -/
theorem witness_OperandRegistersReadBack :
    ([0x0C, 0x5C].all fun n => decide (n ∈ [0x0C, 0x10, 0x14, 0x18, 0x1C, 0x20, 0x40, 0x44, 0x48, 0x4C, 0x50, 0x54,
        0x58, 0x5C])) = true ∧
      ∃ s u : State, s.rst = false ∧ s.busy = false ∧
        s.pending = [.write 0x0C#15 4 0x80000001#32, .read 0x0C#15 4] ∧ u.rst = false ∧ u.busy = false ∧
        u.pending = [.write 0x5C#15 4 0x80000001#32, .read 0x5C#15 4] :=
  ⟨by decide +kernel, { State.reset with pending := [.write 0x0C#15 4 0x80000001#32, .read 0x0C#15 4] },
    { State.reset with pending := [.write 0x5C#15 4 0x80000001#32, .read 0x5C#15 4] }, rfl, rfl, rfl, rfl, rfl, rfl⟩

/-- At the reserved offsets next to the registers and next to the DMEM window. -/
theorem witness_ReservedOffsetsAreZero :
    ([0x28, 0x3C, 0x60, 0x3FFC].all fun n => decide (n % 4 = 0 ∧ n < 0x4000 ∧ n ∉ [0x00, 0x04, 0x08, 0x0C, 0x10, 0x14,
        0x18, 0x1C, 0x20, 0x24, 0x40, 0x44, 0x48, 0x4C, 0x50, 0x54, 0x58, 0x5C])) = true ∧
      HostMoves { State.reset with busy := true, pollsLeft := 1, pending := [.read 0x28#15 4] } (.read 0x28#15 4) [] ∧
      HostMoves { State.reset with pending := [.write 0x3FFC#15 4 7#32] } (.write 0x3FFC#15 4 7#32) [] ∧
      ∃ s : State, s.rst = false ∧ s.busy = false ∧ s.pending = [.write 0x0024#15 4 7#32] :=
  ⟨by decide +kernel, ⟨rfl, rfl, Or.inr ⟨by decide, Nat.one_pos⟩⟩, ⟨rfl, rfl, Or.inl rfl⟩,
    { State.reset with pending := [.write 0x0024#15 4 7#32] }, rfl, rfl, rfl⟩

/-- At the first and the last word of the DMEM window. -/
theorem witness_DmemWindowHoldsTwoElements :
    (BitVec.ofNat 15 (0x4000 + 4 * 0) = 0x4000#15 ∧ BitVec.ofNat 15 (0x4000 + 4 * 4095) = 0x7FFC#15) ∧
      ∃ s u : State, s.rst = false ∧ s.busy = false ∧ s.pending = [.write 0x7FFC#15 4 0x12345678#32] ∧
        u.rst = false ∧ u.busy = false ∧ u.pending = [.read 0x4000#15 4] :=
  ⟨by decide, { State.reset with pending := [.write 0x7FFC#15 4 0x12345678#32] },
    { State.reset with pending := [.read 0x4000#15 4] }, rfl, rfl, rfl, rfl, rfl, rfl⟩

theorem witness_BadAccessesAreBusErrors :
    ((BusAccess.read 0x4001#15 1).size ≠ 4 ∧
        HostMoves { State.reset with pending := [.read 0x4001#15 1] } (.read 0x4001#15 1) []) ∧
      ((BusAccess.write 0x4002#15 4 0#32).size = 4 ∧ (BusAccess.write 0x4002#15 4 0#32).off.toNat % 4 ≠ 0 ∧
        HostMoves { State.reset with busy := true, pollsLeft := 1, pending := [.write 0x4002#15 4 0#32] }
          (.write 0x4002#15 4 0#32) []) :=
  ⟨⟨by decide, rfl, rfl, Or.inl rfl⟩, by decide, by decide, (witness_HostMoves _ (by decide)).2⟩

theorem witness_InterruptFollowsDone :
    (EngineMoves (running 0 { State.reset with irqEn := true }) ∧
        ∃ t, step (running 0 { State.reset with irqEn := true }) = .next t) ∧
      (HostMoves { State.reset with done := true, pending := [.write 0x0000#15 4 1#32] } (.write 0x0000#15 4 1#32) []) ∧
      (HostMoves { State.reset with irqEn := true, done := true, pending := [.write 0x0004#15 4 2#32] }
          (.write 0x0004#15 4 2#32) [] ∧ (2#32 : Word).getLsbD 1 = true) ∧
      ∃ s : State, s.rst = false ∧ s.busy = false ∧ s.irq = true ∧ s.pending = [.write 0x0008#15 4 0#32] :=
  ⟨⟨engineMoves_running 0 _ rfl, _, step_running_nop _ rfl⟩,
    ⟨rfl, rfl, Or.inl rfl⟩, ⟨⟨rfl, rfl, Or.inl rfl⟩, by decide⟩,
    { State.reset with irqEn := true, done := true, pending := [.write 0x0008#15 4 0#32] }, rfl, rfl, rfl, rfl⟩

/-- The first and the last byte of the window, and the bytes next to it. -/
theorem witness_WindowIsAtBase :
    windowOffset 0x80000000 0x80000000 = some 0x0000#15 ∧ windowOffset 0x80000000 0x80007FFF = some 0x7FFF#15 ∧
      windowOffset 0x80000000 0x7FFFFFFF = none ∧ windowOffset 0x80000000 0x80008000 = none := by decide

/-- A `wait` at the start of a program while a QUANT is pending. -/
theorem witness_WaitLoopEnds :
    ∃ h : HostRun, h.awaiting = none ∧ h.program[h.pos]? = some (.rd 0x0004#15 5) ∧
      h.program[h.pos + 1]? = some (.bnz 5 0x1#32 h.pos) ∧ h.device.rst = false ∧ h.device.busy = true ∧
      h.device.pollsLeft = 2 :=
  ⟨{ program := waitOps 5 0, pos := 0, names := [], awaiting := none, device := { running 1 q1 with pollsLeft := 2 } },
    by decide⟩

/-- R252 in the notation: `issue NOP` and then `L: b L`. The branches do not hold the command up: two of them go before it,
it completes, and the host goes on branching. -/
def branchForever : HostRun :=
  { program := [.b 0], pos := 0, names := [], awaiting := none, device := { running 0 State.reset with pollsLeft := 2 } }

theorem test_branches_do_not_hold_up_a_command :
    ([2, 3, 4].map fun n => match HostRun.run n branchForever with
      | .next h => (h.device.busy, h.device.done, h.pos)
      | .fault _ => (true, false, 1)
      | .refused _ => (true, false, 1)) = [(true, false, 0), (false, true, 0), (false, true, 0)] := by
  decide +kernel

theorem witness_HostProgramsCompleteCommands :
    branchForever.device.rst = false ∧ branchForever.device.busy = true ∧
      (∀ a ∈ branchForever.device.pending, a.accepted = true) ∧ branchForever.program.all HostOp.aligned = true := by
  decide

/-- R241: a reset while a QUANT is pending and a read of NZCNT is held. The command does not complete, and the read gets no
answer. -/
theorem test_reset_during_a_command :
    nextSat (runInputs [false, true, false] { State.withFetchWord q1 32 1 with
        pollsLeft := 1, pending := [.read 0x0004#15 4, .read 0x0024#15 4] })
      (fun t => t.toDevice == State.reset.toDevice && t.replies == [.data 1#32] && t.pending == []) = true := by
  decide +kernel

/-- A pending command, accesses behind it, and a reset in the middle of the run. -/
theorem witness_ResetsMayComeAtAnyMoment :
    ∃ (rs : List Bool) (s : State), StateInv s ∧ rs = [false, true, false] ∧ s.busy = true ∧ s.pending.length = 2 ∧
      ∀ a ∈ s.pending, a.accepted = true :=
  ⟨[false, true, false], { invState 1 with pending := [.read 0x0004#15 4, .write 0x4000#15 4 7#32] },
    { invState_inv 1 with }, rfl, rfl, rfl, by decide⟩

/-- A pending command and two accesses behind it, from a state that meets the invariant. -/
theorem witness_SafeRunsGoOn :
    ∃ s : State, StateInv s ∧ s.pending.length = 2 ∧ s.busy = true ∧ ∀ a ∈ s.pending, a.accepted = true :=
  ⟨{ invState 1 with pending := [.read 0x0004#15 4, .write 0x4000#15 4 7#32] },
    { invState_inv 1 with }, rfl, rfl, by decide⟩

/-- A QUANT of sixteen written elements: it reads them and no other. -/
theorem witness_SafeRunsIgnoreFreeReads : SafeRun 1 (running 1 q1) := by
  have written : ∀ a ∈ commandReads .quant q1, (q1.dmem.elem a).isSome = true := by decide +kernel
  refine ⟨⟨fun _ i hd _ => ?_, fun off size rest k h _ => nomatch h.2.1⟩, ?_⟩
  · have hi : i = .quant := (Except.ok.inj hd).symm
    subst hi
    exact written
  · have hd : decode (running 1 q1).cmdLast = .ok .quant := by show decode (tableWord 32 1) = .ok .quant; decide
    refine ⟨complete (quantEffect (running 1 q1)), ?_, trivial⟩
    rw [step_of_engineMoves (engineMoves_running 1 q1 rfl)]
    unfold engineStep
    rw [hd]
    exact exec_of_pass (by decide)

/-- Nothing to do, after a completion and with data in DMEM; and an access while BUSY is 0. -/
theorem witness_IdleStepsChangeNothing :
    ∃ s : State, s.rst = false ∧ s.busy = false ∧ s.done = true ∧ s.dmem ≠ [] ∧ s.pending = [] ∧
      ∃ u : State, u.rst = false ∧ u.busy = false ∧ u.pending = [.read 0x0008#15 4] :=
  ⟨{ State.reset with done := true, dmem := twoElems }, rfl, rfl, rfl, by decide, rfl,
    { State.reset with pending := [.read 0x0008#15 4] }, rfl, rfl, rfl⟩

end Sys2Proof.Tests
end

section
/-! PROOFS. Rules for one host access and for one completion, in the order of the model's definitions: what a read or a write
that the host makes leaves, by the target it reaches (spec/10_state.md R22 to R35), and that the engine's step completes
(spec/44_control.md R191). -/

namespace Sys2Proof.Machine

/-! ### The CTRL word, acknowledgement and the empty memory -/

/-- The CTRL word is IRQ_EN as a number (R23). -/
theorem ctrlWord_eq_ite (s : State) : s.ctrlWord = if s.irqEn then 1#32 else 0#32 := by
  unfold State.ctrlWord
  cases s.irqEn with
  | false => rfl
  | true => rfl

/-- A flag that is cleared by writing a 1 (R25). -/
theorem and_not_eq_ite (flag one : Bool) : (flag && !one) = if one then false else flag := by
  cases one with
  | false => exact Bool.and_true flag
  | true => exact Bool.and_false flag

/-- Acknowledgement, flag by flag: cleared where the word has a 1, else kept (R25). -/
theorem acknowledge_eq_ite (w : Word) (s : State) :
    acknowledge w s =
      { s with
        done := if w.getLsbD 1 then false else s.done
        errs := if w.getLsbD 2 then false else s.errs
        dqsat := if w.getLsbD 3 then false else s.dqsat } := by
  simp only [acknowledge, and_not_eq_ite]

/-- Every element of a memory without bytes is unwritten (R40). -/
@[simp] theorem Memory.elem_nil (a : Nat) : Memory.elem [] a = none := rfl

/-! ### Targets -/

@[simp] theorem readTarget_reg (r : Reg) (s : State) : readTarget (.reg r) s = readReg r s := rfl
@[simp] theorem readTarget_reserved (s : State) : readTarget .reserved s = 0#32 := rfl
@[simp] theorem readTarget_dmem (k : Nat) (s : State) : readTarget (.dmem k) s = readDmemWord k s := rfl

@[simp] theorem writeTarget_reg (r : Reg) (w : Word) (s : State) : writeTarget (.reg r) w s = writeReg r w s := rfl
@[simp] theorem writeTarget_reserved (w : Word) (s : State) : writeTarget .reserved w s = s := rfl
@[simp] theorem writeTarget_dmem (k : Nat) (w : Word) (s : State) :
    writeTarget (.dmem k) w s = writeDmemWord k w s := rfl

/-- A reserved offset holds no access (R35, R194). -/
theorem stalls_of_reserved {a : BusAccess} (h : targetOf a.off = .reserved) : a.stalls = false := by
  rw [BusAccess.stalls, h]
  exact Bool.and_false _

/-! ### The host's move -/

/-- While BUSY is 0 the host makes its oldest access (R229). -/
theorem hostMoves_of_idle {s : State} {a : BusAccess} {rest : List BusAccess} (hr : s.rst = false)
    (hb : s.busy = false) (hp : s.pending = a :: rest) : HostMoves s a rest :=
  ⟨hr, hp, Or.inl hb⟩

/-- The host's accepted access takes effect completely (R64, R65). -/
theorem step_of_accepted {s : State} {a : BusAccess} {rest : List BusAccess} (h : HostMoves s a rest)
    (ha : a.accepted = true) : step s = .next (accessEffect a (s.withRest rest)) := by
  rw [step_of_hostMoves h, hostAccess_of_accepted _ ha]

/-- An aligned 32-bit read answers the value of its target and changes no register (R68). -/
theorem step_of_read {s : State} {off : BusOffset} {t : Target} {rest : List BusAccess}
    (h : HostMoves s (.read off 4) rest) (ht : targetOf off = t) (hal : off.toNat % 4 = 0) :
    step s = .next
      { s.withRest rest with
        replies := .data (readTarget t (s.withRest rest)) :: s.replies
        memReads := s.memReads + t.memReads } := by
  subst ht
  rw [step_of_accepted h (by simp [hal])]
  rfl

/-- An aligned 32-bit write has the effect of its target and is answered (R67). -/
theorem step_of_write {s : State} {off : BusOffset} {t : Target} {w : Word} {rest : List BusAccess}
    (h : HostMoves s (.write off 4 w) rest) (ht : targetOf off = t) (hal : off.toNat % 4 = 0) :
    step s = .next { writeTarget t w (s.withRest rest) with replies := .ok :: s.replies } := by
  subst ht
  rw [step_of_accepted h (by simp [hal])]
  rfl

/-! ### Completion -/

/-- Every command completes, from every state (R191). -/
theorem exec_completes (i : Instr) (s : State) : ∃ t, exec i s = .next t ∧ t.busy = false ∧ t.done = true := by
  cases hc : check i s with
  | none => exact ⟨_, exec_of_pass hc, complete_busy _, complete_done _⟩
  | some e => exact ⟨_, exec_of_error hc, errorComplete_busy e s, errorComplete_done e s⟩

/-- The engine's step is a completion, whatever the pending word is (R191, R201). -/
theorem engineStep_completes (s : State) : ∃ t, engineStep s = .next t ∧ t.busy = false ∧ t.done = true := by
  unfold engineStep
  cases Sys2Proof.decode s.cmdLast with
  | ok i => exact exec_completes i s
  | error e => exact ⟨_, rfl, errorComplete_busy _ s, errorComplete_done _ s⟩

/-- The engine's turn completes the pending command. -/
theorem step_completes_of_engineMoves {s : State} (h : EngineMoves s) :
    ∃ t, step s = .next t ∧ t.busy = false ∧ t.done = true := by
  rw [step_of_engineMoves h]
  exact engineStep_completes s

end Sys2Proof.Machine
end

section
/-! PROOFS. The registers, CTRL, STATUS and the reserved offsets (spec/10_state.md). -/

namespace Sys2Proof.Proofs

open Sys2Proof Sys2Proof.Machine

/-- Settles O50: an unlisted offset reaches the target `reserved`, and a write to NZCNT the register that ignores it. -/
theorem reservedOffsetsAreZero : Obligations.ReservedOffsetsAreZero := by
  unfold Obligations.ReservedOffsetsAreZero
  refine ⟨fun s off w rest hal hlow hunlisted => ?_, fun s w rest hr hb hp => ?_⟩
  · have hres : targetOf off = .reserved := targetOf_reserved hlow (registerMap_offsets ▸ hunlisted)
    refine ⟨stalls_of_reserved hres, stalls_of_reserved hres, fun h => ?_, fun h => ?_⟩
    · rw [step_of_read h hres hal, readTarget_reserved]
      rfl
    · rw [step_of_write h hres hal, writeTarget_reserved]
  · rw [step_of_write (hostMoves_of_idle hr hb hp) targetOf_nzcnt rfl, writeTarget_reg, writeReg]

/-- Settles O6: the CTRL word through its law, every other field by its value at reset. -/
theorem resetState : Obligations.ResetState := by
  unfold Obligations.ResetState
  have hctrl : State.reset.ctrlWord = 0#32 := ctrlWord_eq_ite State.reset
  have hstatus : State.reset.statusWord = 0#32 := by decide
  exact ⟨hctrl, hstatus, rfl, rfl, rfl, rfl, rfl, rfl, rfl, rfl, rfl, rfl, rfl, rfl, rfl, rfl, rfl, rfl, rfl, rfl,
    Memory.elem_nil⟩

/-- Settles O45: a write and a read of the target CTRL, whose word is IRQ_EN alone. -/
theorem ctrlHoldsIrqEnable : Obligations.CtrlHoldsIrqEnable := by
  unfold Obligations.CtrlHoldsIrqEnable
  refine ⟨fun s w rest h => ?_, fun s rest h => ?_, fun s => rfl, rfl⟩
  · rw [step_of_write h targetOf_ctrl rfl, writeTarget_reg, writeReg]
  · rw [step_of_read h targetOf_ctrl rfl, readTarget_reg, readReg, ctrlWord_eq_ite]
    rfl

/-- Settles O47: the write is an acknowledgement, the invariant keeps DONE at 0 while BUSY is 1, and every step of the
engine completes. -/
theorem statusWriteClearsOnes : Obligations.StatusWriteClearsOnes := by
  unfold Obligations.StatusWriteClearsOnes
  refine ⟨fun s w rest h => ?_, fun w => by simp [Target.stalls], fun s hinv hb => ?_, fun s h => ?_⟩
  · rw [step_of_write h targetOf_status rfl, writeTarget_reg, writeReg, acknowledge_eq_ite]
    rfl
  · obtain ⟨hdone, -⟩ := hinv.busyCleared hb
    exact hdone
  · obtain ⟨t, hstep, -, hdone⟩ := step_completes_of_engineMoves h
    exact ⟨t, hstep, hdone⟩

end Sys2Proof.Proofs
end

section
/-! PROOFS. Rules for the DMEM window and for the accesses that are not accepted: the bytes and elements of a DMEM word after
a write, what a read of it gives (spec/20_memory.md R63, R66, R69), and the bus error (R65). -/

namespace Sys2Proof.Machine

/-! ### Bytes of an element -/

/-- A field of a field is a field of the word. -/
theorem extractLsb'_extractLsb'_of_le {n : Nat} (x : BitVec n) (a b : Nat) {l m : Nat} (h : b + m ≤ l) :
    (x.extractLsb' a l).extractLsb' b m = x.extractLsb' (a + b) m := by
  apply BitVec.eq_of_getLsbD_eq
  intro i hi
  have hl : b + i < l := by omega
  simp [hi, hl, Nat.add_assoc]

/-- A written element stands in its two bytes, the low byte first (R66). -/
theorem Memory.byte_of_elem {m : Memory} {a : Nat} {e : Elem} (h : m.elem a = some e) {j : Nat} (hj : j < 2) :
    m.byte (0x4000 + 2 * a + j) = some (e.extractLsb' (8 * j) 8) := by
  unfold Memory.elem at h
  split at h
  · rename_i hi lo hhi hlo
    obtain rfl := Option.some.inj h
    match j, hj with
    | 0, _ => exact hlo.trans (congrArg some BitVec.extractLsb'_append_eq_right.symm)
    | 1, _ => exact hhi.trans (congrArg some BitVec.extractLsb'_append_eq_left.symm)
  · cases h

/-! ### The DMEM word -/

/-- After a write of a DMEM word each of its two elements holds its half of the word (R63). -/
theorem elem_writeDmemWord (k : Nat) (w : Word) (s : State) {i : Nat} (hi : i < 2) :
    (writeDmemWord k w s).dmem.elem (2 * k + i) = some (w.extractLsb' (16 * i) 16) := by
  rw [writeDmemWord_dmem]
  match i, hi with
  | 0, _ => rw [Memory.elem_setElem_ne _ _ (by omega)]; exact Memory.elem_setElem_same _ _ _
  | 1, _ => exact Memory.elem_setElem_same _ _ _

/-- After a write of a DMEM word each of its four bytes stands at its offset: byte `j` is byte `j % 2` of element `j / 2` of
the word (R63, R66). -/
theorem byte_writeDmemWord (k : Nat) (w : Word) (s : State) {j : Nat} (hj : j < 4) :
    (writeDmemWord k w s).dmem.byte (0x4000 + 4 * k + j) = some (w.extractLsb' (8 * j) 8) := by
  have hbyte := Memory.byte_of_elem (elem_writeDmemWord k w s (i := j / 2) (by omega)) (j := j % 2) (by omega)
  rw [extractLsb'_extractLsb'_of_le w _ _ (by omega)] at hbyte
  rwa [show 0x4000 + 2 * (2 * k + j / 2) + j % 2 = 0x4000 + 4 * k + j by omega,
    show 16 * (j / 2) + 8 * (j % 2) = 8 * j by omega] at hbyte

/-- A write of a DMEM word leaves every byte outside the word alone (R63). -/
theorem byte_writeDmemWord_ne (k : Nat) (w : Word) (s : State) {b : Nat}
    (h : b < 0x4000 + 4 * k ∨ 0x4000 + 4 * k + 4 ≤ b) : (writeDmemWord k w s).dmem.byte b = s.dmem.byte b := by
  have apart : ∀ a, a = 2 * k ∨ a = 2 * k + 1 → b ≠ loOffset a ∧ b ≠ hiOffset a := fun a ha => by
    unfold loOffset hiOffset
    omega
  obtain ⟨hlo0, hhi0⟩ := apart (2 * k) (Or.inl rfl)
  obtain ⟨hlo1, hhi1⟩ := apart (2 * k + 1) (Or.inr rfl)
  rw [writeDmemWord_dmem, Memory.byte_setElem_ne _ _ hlo1 hhi1, Memory.byte_setElem_ne _ _ hlo0 hhi0]

/-- The two reads of a DMEM word give its elements where they are written (R63, R69). -/
theorem snapshot_dmemWord (k : Nat) (s : State) :
    Snapshot s.dmem 2 (fun i => 2 * k + i)
      (fun i => if i = 0 then s.readElem 0 (2 * k) else s.readElem 1 (2 * k + 1)) := by
  intro i hi e he
  match i, hi with
  | 0, _ => exact State.readElem_of_written 0 he
  | 1, _ => exact State.readElem_of_written 1 he

/-- The offset of a DMEM word is a multiple of 4 (R63). -/
theorem dmemOffset_aligned (k : Nat) : (BitVec.ofNat 15 (0x4000 + 4 * k)).toNat % 4 = 0 := by
  rw [BitVec.toNat_ofNat]
  omega

/-! ### Accesses that are not accepted (R65) -/

/-- QSCAN accepts exactly the 32-bit accesses at multiples of 4. -/
theorem accepted_iff (a : BusAccess) : a.accepted = true ↔ a.size = 4 ∧ a.off.toNat % 4 = 0 := by
  simp [BusAccess.accepted]

/-- An access that is answered with a bus error is never held (R194). -/
theorem stalls_of_not_accepted {a : BusAccess} (h : ¬ a.accepted = true) : a.stalls = false := by
  rw [BusAccess.stalls, Bool.eq_false_of_not_eq_true h, Bool.false_and]

theorem hostAccess_of_size_ne {a : BusAccess} (s : State) (h : a.size ≠ 4) :
    hostAccess a s = .fault (.busErrorSize a.size) := if_pos h

theorem hostAccess_of_misaligned {a : BusAccess} (s : State) (hs : a.size = 4) (h : a.off.toNat % 4 ≠ 0) :
    hostAccess a s = .fault (.busErrorAlignment a.off) :=
  (if_neg (not_not_intro hs)).trans (if_pos h)

end Sys2Proof.Machine
end

section
/-! PROOFS. The DMEM window and the bus errors (spec/20_memory.md). -/

namespace Sys2Proof.Proofs

open Sys2Proof Sys2Proof.Machine

/-- Settles O52: such an access is not accepted, so it is not held, and the host's move is the fault of the check that
fails. -/
theorem badAccessesAreBusErrors : Obligations.BadAccessesAreBusErrors := by
  unfold Obligations.BadAccessesAreBusErrors
  refine fun s a rest => ⟨fun hsize => ⟨?_, fun hmove => ?_⟩, fun hsize hoff => ⟨?_, fun hmove => ?_⟩⟩
  · exact stalls_of_not_accepted fun hacc => hsize ((accepted_iff a).mp hacc).1
  · rw [step_of_hostMoves hmove, hostAccess_of_size_ne _ hsize]
  · exact stalls_of_not_accepted fun hacc => hoff ((accepted_iff a).mp hacc).2
  · rw [step_of_hostMoves hmove, hostAccess_of_misaligned _ hsize hoff]

/-- Settles O51: the offset reaches the DMEM word `k`, whose write and read have the laws above. -/
theorem dmemWindowHoldsTwoElements : Obligations.DmemWindowHoldsTwoElements := by
  unfold Obligations.DmemWindowHoldsTwoElements
  intro s k w rest hk hr hb
  have htarget := targetOf_dmem hk
  have haligned := dmemOffset_aligned k
  refine ⟨fun hp => ?_, fun hp => ?_⟩
  · have hstep := step_of_write (hostMoves_of_idle hr hb hp) htarget haligned
    rw [writeTarget_dmem] at hstep
    exact ⟨_, hstep, elem_writeDmemWord k w _ (i := 0) (by decide), elem_writeDmemWord k w _ (i := 1) (by decide),
      fun _ hj => byte_writeDmemWord k w _ hj, fun _ hout => byte_writeDmemWord_ne k w _ hout, rfl⟩
  · have hstep := step_of_read (hostMoves_of_idle hr hb hp) htarget haligned
    rw [readTarget_dmem] at hstep
    exact ⟨_, _, _, hstep, snapshot_dmemWord k (s.withRest rest), rfl⟩

end Sys2Proof.Proofs
end

section
/-! PROOFS. The command word: its fields, what decodes, what a row of the opcode map covers, and which commands end with
error STRIDE (spec/30_encoding.md R80 to R88, spec/60_exceptions.md R205). -/

namespace Sys2Proof.Encoding

open Sys2Proof Sys2Proof.Machine Sys2Proof.Laws

/-! ### A word and its fields (R80) -/

/-- A word whose reserved field is 0 is the word of its three other fields. -/
theorem wordOfFields_of_reserved {w : Word} {k : Nat} (hres : reservedField w = 0#24) (hop : (opField w).toNat = k) :
    wordOfFields (slog2Field w) (ordField w) (BitVec.ofNat 4 k) = w := by
  have hwhole : reservedField w ++ slog2Field w ++ ordField w ++ opField w = w := by
    unfold reservedField slog2Field ordField opField
    rw [BitVec.extractLsb'_append_extractLsb'_eq_extractLsb' (by decide),
      BitVec.extractLsb'_append_extractLsb'_eq_extractLsb' (by decide),
      BitVec.extractLsb'_append_extractLsb'_eq_extractLsb' (by decide)]
    exact BitVec.extractLsb'_eq_self
  have hopField : BitVec.ofNat 4 k = opField w := by rw [← hop, BitVec.ofNat_toNat, BitVec.setWidth_eq]
  rwa [hres, ← hopField] at hwhole

/-- The ORD bit of the order that a field selects is the field (R82). -/
@[simp] theorem ordBit_orderOfField (o : BitVec 1) : ordBit (orderOfField o) = o := by
  revert o; decide

/-! ### What decodes (R84) -/

/-- Under SCANB's OP every ORD and SLOG2 decodes. -/
theorem decode_scanb {w : Word} (hres : reservedField w = 0#24) (hop : opField w = 5#4) :
    decode w = .ok (.scanb (orderOfField (ordField w)) (slog2Field w).toNat) := by
  simp [decode, hres, hop]

/-- Under SCANR's OP every ORD decodes when SLOG2 is 0. -/
theorem decode_scanr {w : Word} (hres : reservedField w = 0#24) (hop : opField w = 6#4) (hslog2 : slog2Field w = 0#3) :
    decode w = .ok (.scanr (orderOfField (ordField w))) := by
  simp [decode, hres, hop, hslog2]

/-- Under ISCANB's OP every ORD and SLOG2 decodes. -/
theorem decode_iscanb {w : Word} (hres : reservedField w = 0#24) (hop : opField w = 7#4) :
    decode w = .ok (.iscanb (orderOfField (ordField w)) (slog2Field w).toNat) := by
  simp [decode, hres, hop]

/-- A command that uses neither field decodes from its own word alone. -/
theorem encode_of_decodePlain {w : Word} {k : Nat} {i j : Instr} (hres : reservedField w = 0#24)
    (hop : (opField w).toNat = k) (hwf : i.wellFormed = true) (henc : encode i = wordOfFields 0#3 0#1 (BitVec.ofNat 4 k))
    (h : decodePlain w i = .ok j) : j.wellFormed = true ∧ encode j = w := by
  unfold decodePlain at h
  split at h
  next hfields =>
    obtain ⟨hord, hslog2⟩ := hfields
    obtain rfl := Except.ok.inj h
    have hw := wordOfFields_of_reserved hres hop
    rw [hord, hslog2] at hw
    exact ⟨hwf, henc.trans hw⟩
  next => cases h

/-- A word that decodes is the word of a well-formed command. -/
theorem encode_of_decode {w : Word} {i : Instr} (h : decode w = .ok i) : i.wellFormed = true ∧ encode i = w := by
  unfold decode at h
  split at h
  next => cases h
  next hlong =>
    have hres := not_not.mp hlong
    split at h
    next hop => exact encode_of_decodePlain hres hop rfl rfl h
    next hop => exact encode_of_decodePlain hres hop rfl rfl h
    next hop => exact encode_of_decodePlain hres hop rfl rfl h
    next hop => exact encode_of_decodePlain hres hop rfl rfl h
    next hop => exact encode_of_decodePlain hres hop rfl rfl h
    next hop =>
      obtain rfl := Except.ok.inj h
      exact ⟨decide_eq_true (slog2Field w).isLt, by simpa [encode] using wordOfFields_of_reserved hres hop⟩
    next hop =>
      split at h
      next hslog2 =>
        obtain rfl := Except.ok.inj h
        exact ⟨rfl, by simpa [encode, hslog2] using wordOfFields_of_reserved hres hop⟩
      next => cases h
    next hop =>
      obtain rfl := Except.ok.inj h
      exact ⟨decide_eq_true (slog2Field w).isLt, by simpa [encode] using wordOfFields_of_reserved hres hop⟩
    next => cases h

/-- The word of a command is below 0x100. -/
theorem encode_lt (i : Instr) : (encode i).toNat < 0x100 := by
  cases i with
  | nop => exact EncodedShort.nop.left
  | quant => exact EncodedShort.quant.left
  | dequant => exact EncodedShort.dequant.left
  | abs => exact EncodedShort.abs.left
  | addsign => exact EncodedShort.addsign.left
  | scanb ord slog2 => exact (EncodedShort.scanb ord slog2).left
  | scanr ord => exact (EncodedShort.scanr ord).left
  | iscanb ord slog2 => exact (EncodedShort.iscanb ord slog2).left

/-! ### The opcode map (R88) -/

/-- The mnemonics of the rows that cover a word. -/
def coveringMnemonics (w : Word) : List String := (opcodeMap.filter fun r => r.covers w).map fun r => r.mnemonic

/-- Whatever SLOG2 and ORD are, a word with SCANB's OP is covered by SCANB's row alone. -/
theorem coveringMnemonics_scanb (g : BitVec 3) (o : BitVec 1) : coveringMnemonics (wordOfFields g o 5#4) = ["SCANB"] := by
  revert g o; decide

/-- Whatever ORD is, a word with SCANR's OP and SLOG2 0 is covered by SCANR's row alone. -/
theorem coveringMnemonics_scanr (o : BitVec 1) : coveringMnemonics (wordOfFields 0#3 o 6#4) = ["SCANR"] := by
  revert o; decide

/-- Whatever SLOG2 and ORD are, a word with ISCANB's OP is covered by ISCANB's row alone. -/
theorem coveringMnemonics_iscanb (g : BitVec 3) (o : BitVec 1) : coveringMnemonics (wordOfFields g o 7#4) = ["ISCANB"] := by
  revert g o; decide

/-- The word of a command is covered by the command's own row alone. -/
theorem coveringMnemonics_encode (i : Instr) : coveringMnemonics (encode i) = [i.mnemonic] := by
  cases i with
  | nop => decide
  | quant => decide
  | dequant => decide
  | abs => decide
  | addsign => decide
  | scanb ord slog2 => exact coveringMnemonics_scanb _ _
  | scanr ord => exact coveringMnemonics_scanr _
  | iscanb ord slog2 => exact coveringMnemonics_iscanb _ _

/-- A row that covers a word compares it field by field. -/
theorem fields_of_covers {r : OpcodeRow} {w : Word} (h : r.covers w = true) :
    reservedField w &&& reservedField r.mask = reservedField r.pattern ∧
      slog2Field w &&& slog2Field r.mask = slog2Field r.pattern ∧ opField w &&& opField r.mask = opField r.pattern := by
  have hw : w &&& r.mask = r.pattern := eq_of_beq h
  simp only [← hw, reservedField, slog2Field, opField, BitVec.extractLsb'_and, and_self]

/-- A row whose mask is all ones covers its own word alone. -/
theorem eq_of_covers {m : String} {p w : Word} (h : OpcodeRow.covers ⟨m, p, 0xFFFFFFFF#32⟩ w = true) : w = p :=
  BitVec.and_allOnes.symm.trans (eq_of_beq h)

/-- A word that a row covers decodes. -/
theorem decode_of_covers {r : OpcodeRow} {w : Word} (hr : r ∈ opcodeMap) (h : r.covers w = true) :
    ∃ i, decode w = .ok i := by
  obtain ⟨hres, hslog2, hop⟩ := fields_of_covers h
  simp only [opcodeMap, List.mem_cons, List.not_mem_nil, or_false] at hr
  rcases hr with rfl | rfl | rfl | rfl | rfl | rfl | rfl | rfl
  · exact ⟨.nop, eq_of_covers h ▸ rfl⟩
  · exact ⟨.quant, eq_of_covers h ▸ rfl⟩
  · exact ⟨.dequant, eq_of_covers h ▸ rfl⟩
  · exact ⟨.abs, eq_of_covers h ▸ rfl⟩
  · exact ⟨.addsign, eq_of_covers h ▸ rfl⟩
  · exact ⟨_, decode_scanb (BitVec.and_allOnes.symm.trans hres) (BitVec.and_allOnes.symm.trans hop)⟩
  · exact ⟨_, decode_scanr (BitVec.and_allOnes.symm.trans hres) (BitVec.and_allOnes.symm.trans hop)
      (BitVec.and_allOnes.symm.trans hslog2)⟩
  · exact ⟨_, decode_iscanb (BitVec.and_allOnes.symm.trans hres) (BitVec.and_allOnes.symm.trans hop)⟩

/-- A word that decodes is covered by the row of its command alone. -/
theorem coveringMnemonics_of_decode {w : Word} {i : Instr} (h : decode w = .ok i) :
    coveringMnemonics w = [i.mnemonic] := by
  obtain ⟨-, rfl⟩ := encode_of_decode h
  exact coveringMnemonics_encode i

/-- A word is ILLEGAL exactly when no row covers it. -/
theorem illegal_iff_not_covered (w : Word) :
    (∃ e, decode w = .error e) ↔ ∀ r ∈ opcodeMap, r.covers w = false := by
  constructor
  · rintro ⟨e, he⟩ r hr
    by_contra hcov
    obtain ⟨i, hi⟩ := decode_of_covers hr (Bool.eq_true_of_not_eq_false hcov)
    cases he.symm.trans hi
  · intro hnone
    have hempty : coveringMnemonics w = [] := by simpa [coveringMnemonics] using hnone
    cases hd : decode w with
    | error e => exact ⟨e, rfl⟩
    | ok i => cases hempty.symm.trans (coveringMnemonics_of_decode hd)

/-! ### Error STRIDE (R205) -/

theorem checkScaled_ne_stride (s : State) : checkScaled s ≠ some .stride := by
  unfold checkScaled
  split_ifs <;> simp

theorem checkHelper_ne_stride (s : State) : checkHelper s ≠ some .stride := by
  unfold checkHelper
  split_ifs <;> simp

theorem checkScanr_ne_stride (s : State) : checkScanr s ≠ some .stride := by
  unfold checkScanr
  split_ifs <;> simp

theorem checkScanb_eq_stride_iff (slog2 : Nat) (s : State) : checkScanb slog2 s = some .stride ↔ slog2 < 2 := by
  unfold checkScanb
  split_ifs <;> simp_all

theorem checkIscanb_eq_stride_iff (slog2 : Nat) (s : State) : checkIscanb slog2 s = some .stride ↔ slog2 < 2 := by
  unfold checkIscanb
  split_ifs <;> simp_all

/-- The words that end with error STRIDE: SCANB and ISCANB with SLOG2 0 or 1 (R205). -/
def strideWords : List Word := [0x05#32, 0x15#32, 0x25#32, 0x35#32, 0x07#32, 0x17#32, 0x27#32, 0x37#32]

theorem encode_scanb_mem_strideWords_iff (ord : ScanOrder) :
    ∀ slog2 < 8, encode (.scanb ord slog2) ∈ strideWords ↔ slog2 < 2 := by
  cases ord <;> decide

theorem encode_iscanb_mem_strideWords_iff (ord : ScanOrder) :
    ∀ slog2 < 8, encode (.iscanb ord slog2) ∈ strideWords ↔ slog2 < 2 := by
  cases ord <;> decide

theorem encode_scanr_notMem_strideWords (ord : ScanOrder) : encode (.scanr ord) ∉ strideWords := by
  cases ord <;> decide

/-- A command ends with error STRIDE exactly when its word is one of the STRIDE words. -/
theorem check_eq_stride_iff {i : Instr} (hwf : i.wellFormed = true) (s : State) :
    check i s = some .stride ↔ encode i ∈ strideWords := by
  cases i with
  | nop => exact iff_of_false nofun (by decide)
  | quant => exact iff_of_false (checkScaled_ne_stride s) (by decide)
  | dequant => exact iff_of_false (checkScaled_ne_stride s) (by decide)
  | abs => exact iff_of_false (checkHelper_ne_stride s) (by decide)
  | addsign => exact iff_of_false (checkHelper_ne_stride s) (by decide)
  | scanb ord slog2 =>
    exact (checkScanb_eq_stride_iff slog2 s).trans
      (encode_scanb_mem_strideWords_iff ord slog2 (of_decide_eq_true hwf)).symm
  | scanr ord => exact iff_of_false (checkScanr_ne_stride s) (encode_scanr_notMem_strideWords ord)
  | iscanb ord slog2 =>
    exact (checkIscanb_eq_stride_iff slog2 s).trans
      (encode_iscanb_mem_strideWords_iff ord slog2 (of_decide_eq_true hwf)).symm

end Sys2Proof.Encoding
end

section
/-! PROOFS. The opcode map (spec/30_encoding.md). -/

namespace Sys2Proof.Proofs

open Sys2Proof Sys2Proof.Machine Sys2Proof.Encoding

/-- Settles O3: a word that decodes is the word of its command, so the clauses on such words are facts about the encoding;
a word that a row covers has the fields the decoder asks for; the rows and the two counts are evaluated. -/
theorem opcodeMapDecodes : Obligations.OpcodeMapDecodes := by
  unfold Obligations.OpcodeMapDecodes
  refine ⟨rfl, by decide +kernel, fun w i h => coveringMnemonics_of_decode h, illegal_iff_not_covered,
    fun w i h => ?_, by decide +kernel, fun w i s h => ?_⟩
  · obtain ⟨-, rfl⟩ := encode_of_decode h
    exact encode_lt i
  · obtain ⟨hwf, rfl⟩ := encode_of_decode h
    exact check_eq_stride_iff hwf s

end Sys2Proof.Proofs
end

section
/-! PROOFS. Raster positions (spec/42_scanner.md). The strided block is `stridedAddr_eq`; here are the packed rows. -/

namespace Sys2Proof.Proofs

open Sys2Proof Sys2Proof.Machine

theorem row_eq_getD (s : State) {r : Nat} (hr : r < 4) :
    s.row r = [s.row0, s.row1, s.row2, s.row3].getD r 0#64 :=
  match r, hr with
  | 0, _ => rfl
  | 1, _ => rfl
  | 2, _ => rfl
  | 3, _ => rfl

theorem rowLane_eq (s : State) (p : Nat) :
    s.rowLane p = (s.row (p / 4)).extractLsb' (16 * (p % 4)) 16 := by
  unfold State.rowLane
  rw [Nat.shiftRight_eq_div_pow, show (3 : Nat) = 2 ^ 2 - 1 from rfl, Nat.and_two_pow_sub_one_eq_mod]

theorem getLsbD_rowLane (s : State) (p : Nat) {j : Nat} (hj : j < 16) :
    (s.rowLane p).getLsbD j = (s.row (p / 4)).getLsbD (16 * (p % 4) + j) := by
  rw [rowLane_eq, BitVec.getLsbD_extractLsb', decide_eq_true hj, Bool.true_and]

/-- Settles O40: the shift and the mask of R143 are the quotient and the remainder by 4, in the address of a strided block
and in the lane of a row; a position below 16 names one of the four rows. -/
theorem rasterPositions : Obligations.RasterPositions := by
  unfold Obligations.RasterPositions
  intro p hp
  refine ⟨fun b slog2 => stridedAddr_eq b slog2 p, fun s j hj => ?_⟩
  have hrow : p / 4 < 4 := by omega
  rw [getLsbD_rowLane s p hj, row_eq_getD s hrow]

end Sys2Proof.Proofs
end

section
/-! PROOFS. What the engine's step leaves of the host's side: a reset is not asserted by it, and the accesses still to be made
stay (spec/44_control.md R191, R194). -/

namespace Sys2Proof.Machine

/-- No command's effect asserts or releases reset (log 4). -/
@[simp] theorem effectOf_rst (i : Instr) (s : State) : (effectOf i s).rst = s.rst := by
  cases i with
  | nop => rfl
  | quant => exact quantEffect_rst s
  | dequant => exact dequantEffect_rst s
  | abs => exact absEffect_rst s
  | addsign => exact addsignEffect_rst s
  | scanb ord slog2 => exact scanbEffect_rst (scanTable ord) slog2 s
  | scanr ord => exact scanrEffect_rst (scanTable ord) s
  | iscanb ord slog2 => exact iscanbEffect_rst (scanTable ord) slog2 s

/-- No command's effect makes a host access. -/
@[simp] theorem effectOf_pending (i : Instr) (s : State) : (effectOf i s).pending = s.pending := by
  cases i with
  | nop => rfl
  | quant => exact quantEffect_pending s
  | dequant => exact dequantEffect_pending s
  | abs => exact absEffect_pending s
  | addsign => exact addsignEffect_pending s
  | scanb ord slog2 => exact scanbEffect_pending (scanTable ord) slog2 s
  | scanr ord => exact scanrEffect_pending (scanTable ord) s
  | iscanb ord slog2 => exact iscanbEffect_pending (scanTable ord) slog2 s

/-- All that the engine's step can do: the error completion, or a command's effect and its completion (R191). -/
theorem engineStep_cases {s t : State} (h : engineStep s = .next t) :
    (∃ e, t = errorComplete e s) ∨ ∃ i, t = complete (effectOf i s) := by
  unfold engineStep at h
  split at h
  next i _ =>
    obtain ⟨e, -, ht⟩ | ⟨-, ht⟩ := exec_cases h
    · exact Or.inl ⟨e, ht⟩
    · exact Or.inr ⟨i, ht⟩
  next => exact Or.inl ⟨.illegal, (Host.Outcome.next.inj h).symm⟩

theorem engineStep_rst {s t : State} (h : engineStep s = .next t) : t.rst = s.rst := by
  obtain ⟨e, rfl⟩ | ⟨i, rfl⟩ := engineStep_cases h
  · exact errorComplete_rst e s
  · rw [complete_rst, effectOf_rst]

theorem engineStep_pending {s t : State} (h : engineStep s = .next t) : t.pending = s.pending := by
  obtain ⟨e, rfl⟩ | ⟨i, rfl⟩ := engineStep_cases h
  · exact errorComplete_pending e s
  · rw [complete_pending, effectOf_pending]

/-- A stalled access gives the engine its turn (R194). -/
theorem engineMoves_of_stalls {s : State} {a : BusAccess} {rest : List BusAccess} (hr : s.rst = false)
    (hb : s.busy = true) (hp : s.pending = a :: rest) (ha : a.stalls = true) : EngineMoves s :=
  ⟨hr, hb, Or.inr (Or.inl ⟨a, rest, hp, ha⟩)⟩

/-- A write to CMD stalls (R22). -/
theorem stalls_write_cmd (w : Word) : (BusAccess.write 0x0008#15 4 w).stalls = true := by
  rw [stalls_write, targetOf_cmd]
  rfl

end Sys2Proof.Machine
end

section
/-! PROOFS. Acceptance of a command word (spec/44_control.md R190). -/

namespace Sys2Proof.Proofs

open Sys2Proof Sys2Proof.Machine

/-- Settles O12: while BUSY is 0 the write reaches CMD and is the acceptance; while BUSY is 1 it stalls, so the engine has
its turn, which completes and keeps the host's accesses. -/
theorem commandAcceptance : Obligations.CommandAcceptance := by
  unfold Obligations.CommandAcceptance
  refine ⟨fun s w rest hr hb hp => ?_, fun s w rest hr hb hp => ?_⟩
  · rw [step_of_write (hostMoves_of_idle hr hb hp) targetOf_cmd rfl, writeTarget_reg, writeReg]
    exact ⟨Config.pollsBeforeCompletion s.accepted, rfl⟩
  · obtain ⟨t, hengine, hbusy, -⟩ := engineStep_completes s
    have hstep := step_of_engineMoves (engineMoves_of_stalls hr hb hp (stalls_write_cmd w))
    exact ⟨t, hstep.trans hengine, (engineStep_rst hengine).trans hr, hbusy, (engineStep_pending hengine).trans hp⟩

end Sys2Proof.Proofs
end

section
/-! PROOFS. The lowest failing check: the conditions of spec/60_exceptions.md R201 to R206, command by command, as the
numbers of those that hold; the verdict of the checks is the lowest of them (R207). And the level of `irq` (R215). -/

namespace Sys2Proof.Machine

/-! ### What an effect leaves of STATUS and CTRL -/

/-- No command's effect touches ERRS (R24). -/
@[simp] theorem effectOf_errs (i : Instr) (s : State) : (effectOf i s).errs = s.errs := by
  cases i with
  | nop => rfl
  | quant => exact quantEffect_errs s
  | dequant => exact dequantEffect_errs s
  | abs => exact absEffect_errs s
  | addsign => exact addsignEffect_errs s
  | scanb ord slog2 => exact scanbEffect_errs (scanTable ord) slog2 s
  | scanr ord => exact scanrEffect_errs (scanTable ord) s
  | iscanb ord slog2 => exact iscanbEffect_errs (scanTable ord) slog2 s

/-- No command's effect touches IRQ_EN (R23). -/
@[simp] theorem effectOf_irqEn (i : Instr) (s : State) : (effectOf i s).irqEn = s.irqEn := by
  cases i with
  | nop => rfl
  | quant => exact quantEffect_irqEn s
  | dequant => exact dequantEffect_irqEn s
  | abs => exact absEffect_irqEn s
  | addsign => exact addsignEffect_irqEn s
  | scanb ord slog2 => exact scanbEffect_irqEn (scanTable ord) slog2 s
  | scanr ord => exact scanrEffect_irqEn (scanTable ord) s
  | iscanb ord slog2 => exact iscanbEffect_irqEn (scanTable ord) slog2 s

/-! ### The verdict on the pending word -/

/-- The verdict on the pending word: ILLEGAL where it does not decode, else that of the command's checks (R207). -/
def pendingVerdict (s : State) : Option CmdError :=
  match Sys2Proof.decode s.cmdLast with
  | .ok i => check i s
  | .error _ => some .illegal

theorem pendingVerdict_of_ok {s : State} {i : Instr} (hd : Sys2Proof.decode s.cmdLast = .ok i) :
    pendingVerdict s = check i s := by
  rw [pendingVerdict, hd]

theorem pendingVerdict_of_illegal {s : State} {e : Illegal} (hd : Sys2Proof.decode s.cmdLast = .error e) :
    pendingVerdict s = some .illegal := by
  rw [pendingVerdict, hd]

/-- A verdict that is an error is reported by the error completion, whether the word decodes or not (R210). -/
theorem engineStep_of_verdict_error {s : State} {e : CmdError} (h : pendingVerdict s = some e) :
    engineStep s = .next (errorComplete e s) := by
  unfold engineStep
  cases hd : Sys2Proof.decode s.cmdLast with
  | ok i => exact exec_of_error ((pendingVerdict_of_ok hd).symm.trans h)
  | error c =>
    obtain rfl := Option.some.inj ((pendingVerdict_of_illegal hd).symm.trans h)
    rfl

/-- With no error the pending command has its effect and completes (R192). -/
theorem engineStep_of_verdict_pass {s : State} (h : pendingVerdict s = none) :
    ∃ i, engineStep s = .next (complete (effectOf i s)) := by
  unfold engineStep
  cases hd : Sys2Proof.decode s.cmdLast with
  | ok i => exact ⟨i, exec_of_pass ((pendingVerdict_of_ok hd).symm.trans h)⟩
  | error c => cases (pendingVerdict_of_illegal hd).symm.trans h

/-! ### The conditions of each command (R201 to R206) -/

/-- ADD's bit 31 is set exactly when it is at least 2^31 (R29). -/
theorem bit31_true_iff (w : Word) : w.getLsbD 31 = true ↔ 2 ^ 31 ≤ w.toNat := by
  rw [← Bool.not_eq_false, bit31_false_iff, Nat.not_lt]

theorem fails_iff_of_illegal {s : State} {e : Illegal} (hd : Sys2Proof.decode s.cmdLast = .error e) (n : Nat) :
    Fails s n ↔ n = 1 := by
  unfold Fails
  rw [hd]
  split <;> simp_all

theorem not_fails_of_nop {s : State} (hd : Sys2Proof.decode s.cmdLast = .ok .nop) (n : Nat) : ¬ Fails s n := by
  unfold Fails
  rw [hd]
  exact id

theorem fails_iff_of_scaled {s : State} {i : Instr} (hd : Sys2Proof.decode s.cmdLast = .ok i)
    (hi : i = .quant ∨ i = .dequant) (n : Nat) :
    Fails s n ↔
      n = 2 ∧ s.len.toNat % 16 ≠ 0 ∨ n = 3 ∧ 31 < s.shift.toNat ∨
        n = 4 ∧ (65535 < s.scale.toNat ∨ 2 ^ 31 ≤ s.add.toNat) ∨ n = 6 ∧ 8192 < s.dst.toNat + s.len.toNat := by
  unfold Fails
  rw [hd]
  rcases hi with rfl | rfl
  · split <;> simp_all
  · split <;> simp_all

theorem fails_iff_of_helper {s : State} {i : Instr} (hd : Sys2Proof.decode s.cmdLast = .ok i)
    (hi : i = .abs ∨ i = .addsign) (n : Nat) :
    Fails s n ↔
      n = 2 ∧ s.len.toNat % 16 ≠ 0 ∨
        n = 6 ∧ (8192 < s.dst.toNat + s.len.toNat ∨ 8192 < s.src.toNat + s.len.toNat) := by
  unfold Fails
  rw [hd]
  rcases hi with rfl | rfl
  · split <;> simp_all
  · split <;> simp_all

theorem fails_iff_of_scanb {s : State} {ord : ScanOrder} {slog2 : Nat}
    (hd : Sys2Proof.decode s.cmdLast = .ok (.scanb ord slog2)) (n : Nat) :
    Fails s n ↔
      n = 5 ∧ slog2 < 2 ∨
        n = 6 ∧ (8192 < s.src.toNat + 3 * 2 ^ slog2 + 4 ∨ 8192 < s.dst.toNat + 16) := by
  unfold Fails
  rw [hd]
  split <;> simp_all

theorem fails_iff_of_scanr {s : State} {ord : ScanOrder} (hd : Sys2Proof.decode s.cmdLast = .ok (.scanr ord))
    (n : Nat) : Fails s n ↔ n = 6 ∧ 8192 < s.dst.toNat + 16 := by
  unfold Fails
  rw [hd]
  split <;> simp_all

theorem fails_iff_of_iscanb {s : State} {ord : ScanOrder} {slog2 : Nat}
    (hd : Sys2Proof.decode s.cmdLast = .ok (.iscanb ord slog2)) (n : Nat) :
    Fails s n ↔
      n = 5 ∧ slog2 < 2 ∨
        n = 6 ∧ (8192 < s.src.toNat + 16 ∨ 8192 < s.dst.toNat + 3 * 2 ^ slog2 + 4) := by
  unfold Fails
  rw [hd]
  split <;> simp_all

/-! ### The verdict is the lowest failing condition (R207) -/

/-- The verdict reports the lowest of the numbers in `fails`: no error where there is none. -/
def ReportsLowest (fails : Nat → Prop) : Option CmdError → Prop
  | none => ∀ n, ¬ fails n
  | some e => ∃ k, e.code = BitVec.ofNat 4 k ∧ fails k ∧ ∀ m < k, ¬ fails m

/-- The verdict depends on which numbers hold, not on how that is said. -/
theorem reportsLowest_congr {fails conds : Nat → Prop} {verdict : Option CmdError} (h : ∀ n, fails n ↔ conds n) :
    ReportsLowest fails verdict ↔ ReportsLowest conds verdict := by
  rw [funext fun n => propext (h n)]

/-- There is one lowest number, so the code reported is that of any number that is the lowest. -/
theorem code_of_reportsLowest {fails : Nat → Prop} {e : CmdError} {n : Nat} (h : ReportsLowest fails (some e))
    (hn : fails n) (hlower : ∀ m < n, ¬ fails m) : e.code = BitVec.ofNat 4 n := by
  obtain ⟨k, hcode, hk, hbelow⟩ := h
  rcases Nat.lt_trichotomy n k with hlt | rfl | hgt
  · exact absurd hn (hbelow n hlt)
  · exact hcode
  · exact absurd hk (hlower k hgt)

/-- One check in a chain of checks: none below its number holds; where it fails it is reported, and where it passes the
verdict is that of the checks after it. -/
theorem reportsLowest_ite {fails : Nat → Prop} {c : Prop} [Decidable c] {e : CmdError} {rest : Option CmdError} (k : Nat)
    (hcode : e.code = BitVec.ofNat 4 k) (hlower : ∀ m < k, ¬ fails m) (hfail : c → fails k)
    (hrest : ¬ c → ReportsLowest fails rest) : ReportsLowest fails (if c then some e else rest) := by
  split
  next hc => exact ⟨k, hcode, hfail hc, hlower⟩
  next hc => exact hrest hc

theorem checkScaled_reportsLowest {s : State} {i : Instr} (hd : Sys2Proof.decode s.cmdLast = .ok i)
    (hi : i = .quant ∨ i = .dequant) : ReportsLowest (Fails s) (checkScaled s) := by
  rw [reportsLowest_congr (fails_iff_of_scaled hd hi)]
  simp only [checkScaled, bit31_true_iff, State.lenVal, State.shiftVal, State.scaleVal, State.dstVal, pastEnd, dmemWords]
  refine reportsLowest_ite 2 rfl (fun m hm => by omega) (fun hlen => by omega) fun hlen => ?_
  refine reportsLowest_ite 3 rfl (fun m hm => by omega) (fun hshift => by omega) fun hshift => ?_
  refine reportsLowest_ite 4 rfl (fun m hm => by omega) (fun hparam => by omega) fun hparam => ?_
  exact reportsLowest_ite 6 rfl (fun m hm => by omega) (fun hrange => by omega) fun hrange n => by omega

theorem checkHelper_reportsLowest {s : State} {i : Instr} (hd : Sys2Proof.decode s.cmdLast = .ok i)
    (hi : i = .abs ∨ i = .addsign) : ReportsLowest (Fails s) (checkHelper s) := by
  rw [reportsLowest_congr (fails_iff_of_helper hd hi)]
  simp only [checkHelper, State.lenVal, State.dstVal, State.srcVal, pastEnd, dmemWords]
  refine reportsLowest_ite 2 rfl (fun m hm => by omega) (fun hlen => by omega) fun hlen => ?_
  exact reportsLowest_ite 6 rfl (fun m hm => by omega) (fun hrange => by omega) fun hrange n => by omega

theorem checkScanb_reportsLowest {s : State} {ord : ScanOrder} {slog2 : Nat}
    (hd : Sys2Proof.decode s.cmdLast = .ok (.scanb ord slog2)) : ReportsLowest (Fails s) (checkScanb slog2 s) := by
  rw [reportsLowest_congr (fails_iff_of_scanb hd)]
  simp only [checkScanb, State.srcVal, State.dstVal, pastEnd, dmemWords, stridedSpan]
  refine reportsLowest_ite 5 rfl (fun m hm => by omega) (fun hstride => by omega) fun hstride => ?_
  exact reportsLowest_ite 6 rfl (fun m hm => by omega) (fun hrange => by omega) fun hrange n => by omega

theorem checkScanr_reportsLowest {s : State} {ord : ScanOrder}
    (hd : Sys2Proof.decode s.cmdLast = .ok (.scanr ord)) : ReportsLowest (Fails s) (checkScanr s) := by
  rw [reportsLowest_congr (fails_iff_of_scanr hd)]
  simp only [checkScanr, State.dstVal, pastEnd, dmemWords]
  exact reportsLowest_ite 6 rfl (fun m hm => by omega) (fun hrange => by omega) fun hrange n => by omega

theorem checkIscanb_reportsLowest {s : State} {ord : ScanOrder} {slog2 : Nat}
    (hd : Sys2Proof.decode s.cmdLast = .ok (.iscanb ord slog2)) : ReportsLowest (Fails s) (checkIscanb slog2 s) := by
  rw [reportsLowest_congr (fails_iff_of_iscanb hd)]
  simp only [checkIscanb, State.srcVal, State.dstVal, pastEnd, dmemWords, stridedSpan]
  refine reportsLowest_ite 5 rfl (fun m hm => by omega) (fun hstride => by omega) fun hstride => ?_
  exact reportsLowest_ite 6 rfl (fun m hm => by omega) (fun hrange => by omega) fun hrange n => by omega

/-- The order of the checks of R207 is that of their numbers: the verdict on the pending word is its lowest failing
condition. -/
theorem pendingVerdict_reportsLowest (s : State) : ReportsLowest (Fails s) (pendingVerdict s) := by
  cases hd : Sys2Proof.decode s.cmdLast with
  | error e =>
    rw [pendingVerdict_of_illegal hd]
    have hfails := fails_iff_of_illegal hd
    exact ⟨1, rfl, (hfails 1).mpr rfl, fun m hm hm1 => Nat.ne_of_lt hm ((hfails m).mp hm1)⟩
  | ok i =>
    rw [pendingVerdict_of_ok hd]
    cases i with
    | nop => exact not_fails_of_nop hd
    | quant => exact checkScaled_reportsLowest hd (Or.inl rfl)
    | dequant => exact checkScaled_reportsLowest hd (Or.inr rfl)
    | abs => exact checkHelper_reportsLowest hd (Or.inl rfl)
    | addsign => exact checkHelper_reportsLowest hd (Or.inr rfl)
    | scanb ord slog2 => exact checkScanb_reportsLowest hd
    | scanr ord => exact checkScanr_reportsLowest hd
    | iscanb ord slog2 => exact checkIscanb_reportsLowest hd

/-! ### The interrupt output (R215) -/

/-- While DONE is set, `irq` is IRQ_EN. -/
theorem irq_of_done {s : State} (h : s.done = true) : s.irq = s.irqEn := by
  rw [State.irq, h, Bool.and_true]

/-- While DONE is clear, `irq` is low, whatever IRQ_EN is. -/
theorem irq_of_not_done {s : State} (h : s.done = false) : s.irq = false := by
  rw [State.irq, h, Bool.and_false]

/-- A completion, with error or without, raises `irq` when it is enabled. -/
theorem engineStep_irq {s t : State} (h : engineStep s = .next t) : t.irq = s.irqEn := by
  obtain ⟨e, rfl⟩ | ⟨i, rfl⟩ := engineStep_cases h
  · rw [irq_of_done (errorComplete_done e s), errorComplete_irqEn]
  · rw [irq_of_done (complete_done _), complete_irqEn, effectOf_irqEn]

end Sys2Proof.Machine
end

section
/-! PROOFS. Errors and the interrupt output (spec/60_exceptions.md). -/

namespace Sys2Proof.Proofs

open Sys2Proof Sys2Proof.Machine

/-- Settles O16: the engine's step follows the verdict on the pending word, and the verdict is the lowest failing
condition. -/
theorem lowestFailingCheckIsReported : Obligations.LowestFailingCheckIsReported := by
  unfold Obligations.LowestFailingCheckIsReported
  intro s hmove
  have hlowest := pendingVerdict_reportsLowest s
  rw [step_of_engineMoves hmove]
  cases hverdict : pendingVerdict s with
  | none =>
    rw [hverdict] at hlowest
    obtain ⟨i, hstep⟩ := engineStep_of_verdict_pass hverdict
    refine ⟨_, hstep, fun _ => ⟨complete_errCode _, ?_⟩, fun n hn _ => absurd hn (hlowest n)⟩
    rw [complete_errs, effectOf_errs]
  | some e =>
    rw [hverdict] at hlowest
    refine ⟨_, engineStep_of_verdict_error hverdict, fun hpass => ?_, fun n hn hlower => ?_⟩
    · obtain ⟨k, -, hk, -⟩ := hlowest
      exact absurd hk (hpass k)
    · rw [errorComplete, code_of_reportsLowest hlowest hn hlower]

/-- Settles O54: `irq` is IRQ_EN and DONE, so each clause says what the step leaves of the two: a completion sets DONE, CTRL
holds IRQ_EN, an acknowledgement and an acceptance clear DONE. -/
theorem interruptFollowsDone : Obligations.InterruptFollowsDone := by
  unfold Obligations.InterruptFollowsDone
  refine ⟨fun s => Bool.and_eq_true_iff, fun s t hmove hstep => ?_, fun s w rest h => ?_, fun s w rest h hw => ?_,
    fun s w rest hr hb hp => ?_⟩
  · rw [step_of_engineMoves hmove] at hstep
    exact engineStep_irq hstep
  · exact ⟨_, step_of_write h targetOf_ctrl rfl, rfl⟩
  · refine ⟨_, step_of_write h targetOf_status rfl, irq_of_not_done ?_⟩
    show (acknowledge w (s.withRest rest)).done = false
    rw [acknowledge_done, hw, Bool.not_true, Bool.and_false]
  · exact ⟨_, step_of_write (hostMoves_of_idle hr hb hp) targetOf_cmd rfl, irq_of_not_done (accept_done w _)⟩

end Sys2Proof.Proofs
end

section
/-! PROOFS. The command word, continued: what decoding gives for an encoded command, and which words are ILLEGAL, in the
fields and in arithmetic on the word (spec/30_encoding.md R80 to R86, spec/60_exceptions.md R201). -/

namespace Sys2Proof.Encoding

open Sys2Proof

/-! ### The fields of a word put together from fields (R80) -/

@[simp] theorem reservedField_wordOfFields (g : BitVec 3) (o : BitVec 1) (op : BitVec 4) :
    reservedField (wordOfFields g o op) = 0#24 := by
  revert g o op; decide

@[simp] theorem slog2Field_wordOfFields (g : BitVec 3) (o : BitVec 1) (op : BitVec 4) :
    slog2Field (wordOfFields g o op) = g := by
  revert g o op; decide

@[simp] theorem ordField_wordOfFields (g : BitVec 3) (o : BitVec 1) (op : BitVec 4) :
    ordField (wordOfFields g o op) = o := by
  revert g o op; decide

@[simp] theorem opField_wordOfFields (g : BitVec 3) (o : BitVec 1) (op : BitVec 4) :
    opField (wordOfFields g o op) = op := by
  revert g o op; decide

/-- The order that the ORD bit of an order selects is the order (R82). -/
@[simp] theorem orderOfField_ordBit (ord : ScanOrder) : orderOfField (ordBit ord) = ord := by
  cases ord <;> rfl

/-- A SLOG2 value that fits its field comes back from it (R83). -/
theorem toNat_slog2_of_lt {slog2 : Nat} (h : slog2 < 8) : (BitVec.ofNat 3 slog2).toNat = slog2 := by
  rw [BitVec.toNat_ofNat, Nat.mod_eq_of_lt h]

/-- The word of a well-formed command decodes to the command. -/
theorem decode_encode {i : Instr} (hwf : i.wellFormed = true) : decode (encode i) = .ok i := by
  cases i with
  | nop => rfl
  | quant => rfl
  | dequant => rfl
  | abs => rfl
  | addsign => rfl
  | scanb ord slog2 =>
    rw [encode, decode_scanb (reservedField_wordOfFields _ _ _) (opField_wordOfFields _ _ _), ordField_wordOfFields,
      slog2Field_wordOfFields, orderOfField_ordBit, toNat_slog2_of_lt (of_decide_eq_true hwf)]
  | scanr ord =>
    rw [encode, decode_scanr (reservedField_wordOfFields _ _ _) (opField_wordOfFields _ _ _)
      (slog2Field_wordOfFields _ _ _), ordField_wordOfFields, orderOfField_ordBit]
  | iscanb ord slog2 =>
    rw [encode, decode_iscanb (reservedField_wordOfFields _ _ _) (opField_wordOfFields _ _ _), ordField_wordOfFields,
      slog2Field_wordOfFields, orderOfField_ordBit, toNat_slog2_of_lt (of_decide_eq_true hwf)]

/-! ### The fields as numbers -/

theorem toNat_opField (w : Word) : (opField w).toNat = w.toNat % 2 ^ 4 := by
  simp [opField, BitVec.extractLsb'_toNat]

theorem toNat_ordField (w : Word) : (ordField w).toNat = w.toNat / 2 ^ 4 % 2 := by
  simp [ordField, BitVec.extractLsb'_toNat, Nat.shiftRight_eq_div_pow]

theorem toNat_slog2Field (w : Word) : (slog2Field w).toNat = w.toNat / 2 ^ 5 % 2 ^ 3 := by
  simp [slog2Field, BitVec.extractLsb'_toNat, Nat.shiftRight_eq_div_pow]

theorem toNat_reservedField (w : Word) : (reservedField w).toNat = w.toNat / 2 ^ 8 := by
  have hw := w.isLt
  simp only [reservedField, BitVec.extractLsb'_toNat, Nat.shiftRight_eq_div_pow]
  omega

/-! ### Which words are ILLEGAL (R201) -/

/-- A command that uses neither field is ILLEGAL exactly when one of them is not 0. -/
theorem decodePlain_illegal_iff (w : Word) (i : Instr) :
    (∃ e, decodePlain w i = .error e) ↔ ordField w ≠ 0#1 ∨ slog2Field w ≠ 0#3 := by
  unfold decodePlain
  split
  next h => simp [h]
  next h => simpa [or_iff_not_imp_left] using h

/-- A word is ILLEGAL by a reserved bit, by a reserved OP, or by a field that its OP does not use. -/
theorem illegal_iff_fields (w : Word) :
    (∃ e, decode w = .error e) ↔
      reservedField w ≠ 0#24 ∨ 8 ≤ (opField w).toNat ∨
        (opField w).toNat ≤ 4 ∧ (ordField w ≠ 0#1 ∨ slog2Field w ≠ 0#3) ∨
          (opField w).toNat = 6 ∧ slog2Field w ≠ 0#3 := by
  unfold decode
  split
  next hres => exact iff_of_true ⟨_, rfl⟩ (Or.inl hres)
  next hres =>
    split
    next hop => rw [decodePlain_illegal_iff, hop]; simp [hres]
    next hop => rw [decodePlain_illegal_iff, hop]; simp [hres]
    next hop => rw [decodePlain_illegal_iff, hop]; simp [hres]
    next hop => rw [decodePlain_illegal_iff, hop]; simp [hres]
    next hop => rw [decodePlain_illegal_iff, hop]; simp [hres]
    next hop => rw [hop]; simp [hres]
    next hop => rw [hop]; split <;> simp_all
    next hop => rw [hop]; simp [hres]
    next h0 h1 h2 h3 h4 h5 h6 h7 =>
      have hreservedOp : 8 ≤ (opField w).toNat := by
        simp only [imp_false] at h0 h1 h2 h3 h4 h5 h6 h7
        omega
      exact iff_of_true ⟨_, rfl⟩ (Or.inr (Or.inl hreservedOp))

end Sys2Proof.Encoding
end

section
/-! PROOFS. The encoding, both ways (spec/30_encoding.md). -/

namespace Sys2Proof.Proofs

open Sys2Proof Sys2Proof.Machine Sys2Proof.Encoding

/-- Settles O1: the decoder reads from a command's word the fields the encoder put in. -/
theorem decodeOfEncode : Obligations.DecodeOfEncode := by
  unfold Obligations.DecodeOfEncode
  exact fun i hwf => decode_encode hwf

/-- Settles O2: a word that decodes has reserved bits 0, so it is put together from the fields that the decoder read. -/
theorem encodeOfDecode : Obligations.EncodeOfDecode := by
  unfold Obligations.EncodeOfDecode
  exact fun w i h => encode_of_decode h

/-- Settles O4: the three causes in the fields, with each field as a quotient and a remainder of the word. -/
theorem illegalWordsAreThese : Obligations.IllegalWordsAreThese := by
  unfold Obligations.IllegalWordsAreThese
  intro w
  rw [illegal_iff_fields]
  simp only [ne_eq, ← BitVec.toNat_inj, toNat_reservedField, toNat_opField, toNat_ordField, toNat_slog2Field,
    BitVec.toNat_ofNat]
  omega

/-- Settles O5: five of the words are commands without operands; the four others are the words of theirs. -/
theorem specWordsDecode : Obligations.SpecWordsDecode := by
  unfold Obligations.SpecWordsDecode
  exact ⟨decode_encode (i := .nop) rfl, decode_encode (i := .quant) rfl, decode_encode (i := .dequant) rfl,
    decode_encode (i := .abs) rfl, decode_encode (i := .addsign) rfl, decode_encode (i := .scanb .yx 6) rfl,
    decode_encode (i := .scanr .yx) rfl, decode_encode (i := .iscanb .yx 7) rfl,
    decode_encode (i := .scanb .yx 0) rfl⟩

end Sys2Proof.Proofs
end

section
/-! PROOFS. The scan tables in use (spec/42_scanner.md R140). -/

namespace Sys2Proof.Machine

/-- The default tables of R141 are legal, so that the tables in use always are. -/
theorem tablesLegal_default : TablesLegal defaultTable := by
  decide

/-- The tables in use are legal, whatever the platform was built with (log 5). -/
theorem tablesLegal_scanTable : TablesLegal scanTable := by
  by_cases h : TablesLegal Config.rawScanTable
  · have hraw : scanTable = Config.rawScanTable := funext fun o => if_pos h
    rwa [hraw]
  · have hdefault : scanTable = defaultTable := funext fun o => if_neg h
    rw [hdefault]
    exact tablesLegal_default

theorem scanTable_surjective (o : ScanOrder) : Function.Surjective (scanTable o) := by
  obtain ⟨hxy, hyx, -⟩ := tablesLegal_scanTable
  cases o with
  | xy => exact hxy
  | yx => exact hyx

theorem scanTable_bijective (o : ScanOrder) : Function.Bijective (scanTable o) :=
  Function.Surjective.bijective_of_finite (scanTable_surjective o)

theorem scanTable_xy_ne_yx : scanTable .xy ≠ scanTable .yx := by
  obtain ⟨-, -, hne⟩ := tablesLegal_scanTable
  exact hne

theorem scanPos_lt (t : ScanTable) (k : Nat) : scanPos t k < 16 := (t (Fin.ofNat 16 k)).isLt

theorem scanPos_val (t : ScanTable) (k : Fin 16) : scanPos t k.val = (t k).val := by
  rw [scanPos, Fin.ofNat_eq_cast, Fin.cast_val_eq_self]

/-- Every raster position has its place in the scan order. -/
theorem exists_scanPos_eq (o : ScanOrder) {p : Nat} (hp : p < 16) : ∃ k < 16, scanPos (scanTable o) k = p := by
  obtain ⟨k, hk⟩ := scanTable_surjective o ⟨p, hp⟩
  exact ⟨k.val, k.isLt, by rw [scanPos_val, hk]⟩

/-- No raster position is scanned twice. -/
theorem scanPos_inj (o : ScanOrder) {j k : Nat} (hj : j < 16) (hk : k < 16)
    (h : scanPos (scanTable o) j = scanPos (scanTable o) k) : j = k := by
  have hval := (scanPos_val (scanTable o) ⟨j, hj⟩).symm.trans (h.trans (scanPos_val (scanTable o) ⟨k, hk⟩))
  exact congrArg Fin.val ((scanTable_bijective o).injective (Fin.val_injective hval))

end Sys2Proof.Machine
end

section
/-! PROOFS. Every command as one list of stores: how many elements it writes, where and what, and what its effect leaves of
the rest of the state (spec/20_memory.md R61, spec/44_control.md R191). -/

namespace Sys2Proof.Machine

/-! ### The stores of a command -/

/-- How many elements a command writes. -/
def storeCount (i : Instr) (s : State) : Nat :=
  match i with
  | .nop => 0
  | .quant => s.lenVal
  | .dequant => s.lenVal
  | .abs => s.lenVal
  | .addsign => s.lenVal
  | .scanb _ _ => 16
  | .scanr _ => 16
  | .iscanb _ _ => 16

/-- Where its `k`-th store goes: in a line from DST, but for ISCANB, whose stores go to a strided CG (R143, R148). -/
def storeAddr (i : Instr) (s : State) : Nat → Nat :=
  match i with
  | .iscanb ord slog2 => fun k => stridedAddr s.dstVal slog2 (scanPos (scanTable ord) k)
  | _ => linearAddr s.dstVal

/-- What its `k`-th store writes. -/
def storeVal (i : Instr) (s : State) : Nat → Elem :=
  match i with
  | .nop => fun _ => 0#16
  | .quant => s.quantAt
  | .dequant => fun k => trunc16 (sat16 (s.dequantAt k))
  | .abs => s.absAt
  | .addsign => s.addsignAt
  | .scanb ord slog2 => fun k =>
    s.readElem (scanPos (scanTable ord) k) (stridedAddr s.srcVal slog2 (scanPos (scanTable ord) k))
  | .scanr ord => fun k => s.rowLane (scanPos (scanTable ord) k)
  | .iscanb _ _ => fun k => s.readElem k (linearAddr s.srcVal k)

/-- The effect of a command on DMEM is its stores. -/
theorem effectOf_dmem (i : Instr) (s : State) :
    (effectOf i s).dmem = s.dmem.storeElems (storeAddr i s) (storeVal i s) (storeCount i s) := by
  cases i with
  | nop => rfl
  | quant => exact quantEffect_dmem s
  | dequant => exact dequantEffect_dmem s
  | abs => exact absEffect_dmem s
  | addsign => exact addsignEffect_dmem s
  | scanb ord slog2 => exact scanbEffect_dmem (scanTable ord) slog2 s
  | scanr ord => exact scanrEffect_dmem (scanTable ord) s
  | iscanb ord slog2 => exact iscanbEffect_dmem (scanTable ord) slog2 s

/-- The elements a command writes are the places of its stores: a scan table reaches every position of the CG. -/
theorem mem_commandWrites_iff (i : Instr) (s : State) (a : Nat) :
    a ∈ commandWrites i s ↔ ∃ k < storeCount i s, storeAddr i s k = a := by
  cases i with
  | iscanb ord slog2 =>
    simp only [commandWrites, storeCount, storeAddr, List.mem_map, List.mem_range]
    constructor
    · rintro ⟨p, hp, rfl⟩
      obtain ⟨k, hk, rfl⟩ := exists_scanPos_eq ord hp
      exact ⟨k, hk, rfl⟩
    · rintro ⟨k, -, rfl⟩
      exact ⟨_, scanPos_lt (scanTable ord) k, rfl⟩
  | _ => simp [commandWrites, storeCount, storeAddr]

/-! ### Where the stores go when the checks pass (R149, R206) -/

/-- A raster position of a CG lies within its span (R206). -/
theorem stridedAddr_lt (b slog2 : Nat) {p : Nat} (hp : p < 16) : stridedAddr b slog2 p < b + 3 * 2 ^ slog2 + 4 := by
  have hrow : p / 4 ≤ 3 := by omega
  have hrows := Nat.mul_le_mul_right (2 ^ slog2) hrow
  rw [stridedAddr_eq]
  omega

/-- A command whose checks pass stores within DMEM. -/
theorem storeAddr_lt_of_pass {i : Instr} {s : State} (h : check i s = none) {k : Nat} (hk : k < storeCount i s) :
    storeAddr i s k < dmemWords := by
  cases i with
  | nop => exact absurd hk (Nat.not_lt_zero k)
  | quant =>
    obtain ⟨-, -, -, -, hrange⟩ := (checkScaled_eq_none_iff s).mp h
    exact lt_of_lt_of_le (Nat.add_lt_add_left hk _) hrange
  | dequant =>
    obtain ⟨-, -, -, -, hrange⟩ := (checkScaled_eq_none_iff s).mp h
    exact lt_of_lt_of_le (Nat.add_lt_add_left hk _) hrange
  | abs =>
    obtain ⟨-, hrange, -⟩ := (checkHelper_eq_none_iff s).mp h
    exact lt_of_lt_of_le (Nat.add_lt_add_left hk _) hrange
  | addsign =>
    obtain ⟨-, hrange, -⟩ := (checkHelper_eq_none_iff s).mp h
    exact lt_of_lt_of_le (Nat.add_lt_add_left hk _) hrange
  | scanb ord slog2 =>
    obtain ⟨-, -, hrange⟩ := (checkScanb_eq_none_iff slog2 s).mp h
    exact lt_of_lt_of_le (Nat.add_lt_add_left hk _) hrange
  | scanr ord => exact lt_of_lt_of_le (Nat.add_lt_add_left hk _) ((checkScanr_eq_none_iff s).mp h)
  | iscanb ord slog2 =>
    obtain ⟨-, -, hrange⟩ := (checkIscanb_eq_none_iff slog2 s).mp h
    exact lt_of_lt_of_le (stridedAddr_lt s.dstVal slog2 (scanPos_lt _ k)) hrange

/-- A command whose checks pass stores to distinct elements (R149). -/
theorem storeAddr_inj_of_pass {i : Instr} {s : State} (h : check i s = none) :
    ∀ j < storeCount i s, ∀ k < storeCount i s, storeAddr i s j = storeAddr i s k → j = k := by
  cases i with
  | iscanb ord slog2 =>
    obtain ⟨hstride, -, -⟩ := (checkIscanb_eq_none_iff slog2 s).mp h
    exact fun j hj k hk heq => scanPos_inj ord hj hk (stridedAddr_inj hstride heq)
  | _ => exact fun j _ k _ heq => linearAddr_inj heq

/-- A command whose checks pass stores exactly its elements. -/
theorem effectOf_storesExactly {i : Instr} {s : State} (h : check i s = none) :
    StoresExactly s.dmem (effectOf i s).dmem (storeCount i s) (storeAddr i s) (storeVal i s) := by
  rw [effectOf_dmem]
  exact storesExactly_storeElems _ _ _ _ (storeAddr_inj_of_pass h)

/-! ### What else an effect changes -/

/-- An effect changes DMEM, NZCNT, DQSAT and the count of reads, and nothing else. -/
theorem effectOf_frame (i : Instr) (s : State) :
    effectOf i s =
      { s with
        dmem := (effectOf i s).dmem
        nzcnt := (effectOf i s).nzcnt
        dqsat := (effectOf i s).dqsat
        memReads := (effectOf i s).memReads } := by
  cases i with
  | nop => rfl
  | quant => rfl
  | dequant => rfl
  | abs => rfl
  | addsign => rfl
  | scanb ord slog2 => simp only [effectOf, scanbEffect]
  | scanr ord => simp only [effectOf, scanrEffect]
  | iscanb ord slog2 => simp only [effectOf, iscanbEffect]

/-- QUANT and ADDSIGN write LEN elements. -/
theorem storeCount_of_counting {i : Instr} (hi : i = .quant ∨ i = .addsign) (s : State) :
    storeCount i s = s.lenVal := by
  rcases hi with rfl | rfl
  · rfl
  · rfl

/-- Only QUANT and ADDSIGN write NZCNT: the number of nonzero elements they store (R33). -/
theorem effectOf_nzcnt_of_counting {i : Instr} (hi : i = .quant ∨ i = .addsign) (s : State) :
    (effectOf i s).nzcnt = BitVec.ofNat 32 (nonzeroCount (storeCount i s) (storeVal i s)) := by
  rcases hi with rfl | rfl
  · exact quantEffect_nzcnt s
  · exact addsignEffect_nzcnt s

theorem effectOf_nzcnt_of_not_counting {i : Instr} (hi : i ≠ .quant ∧ i ≠ .addsign) (s : State) :
    (effectOf i s).nzcnt = s.nzcnt := by
  cases i with
  | nop => rfl
  | quant => exact absurd rfl hi.left
  | dequant => exact dequantEffect_nzcnt s
  | abs => exact absEffect_nzcnt s
  | addsign => exact absurd rfl hi.right
  | scanb ord slog2 => exact scanbEffect_nzcnt (scanTable ord) slog2 s
  | scanr ord => exact scanrEffect_nzcnt (scanTable ord) s
  | iscanb ord slog2 => exact iscanbEffect_nzcnt (scanTable ord) slog2 s

/-- Only DEQUANT writes DQSAT (R121). -/
theorem effectOf_dqsat_of_ne {i : Instr} (hi : i ≠ .dequant) (s : State) : (effectOf i s).dqsat = s.dqsat := by
  cases i with
  | nop => rfl
  | quant => exact quantEffect_dqsat s
  | dequant => exact absurd rfl hi
  | abs => exact absEffect_dqsat s
  | addsign => exact addsignEffect_dqsat s
  | scanb ord slog2 => exact scanbEffect_dqsat (scanTable ord) slog2 s
  | scanr ord => exact scanrEffect_dqsat (scanTable ord) s
  | iscanb ord slog2 => exact iscanbEffect_dqsat (scanTable ord) slog2 s

/-- No effect clears DQSAT (R24). -/
theorem effectOf_dqsat_of_set (i : Instr) {s : State} (h : s.dqsat = true) : (effectOf i s).dqsat = true := by
  by_cases hi : i = .dequant
  · subst hi
    exact (dequantEffect_dqsat s).trans (by rw [h, Bool.true_or])
  · rw [effectOf_dqsat_of_ne hi, h]

/-- A count is at most the number of elements counted. -/
theorem nonzeroCount_le (n : Nat) (val : Nat → Elem) : nonzeroCount n val ≤ n := by
  unfold nonzeroCount
  exact (List.countP_le_length).trans_eq List.length_range

/-- The count that a command stores in NZCNT is at most LEN. -/
theorem effectOf_nzcnt_le {i : Instr} (hi : i = .quant ∨ i = .addsign) (s : State) :
    (effectOf i s).nzcnt.toNat ≤ s.lenVal := by
  rw [effectOf_nzcnt_of_counting hi, BitVec.toNat_ofNat, storeCount_of_counting hi]
  exact (Nat.mod_le _ _).trans (nonzeroCount_le _ _)

/-- All that executing a command can change: STATUS, DMEM, NZCNT and the count of reads. -/
theorem exec_frame {i : Instr} {s t : State} (h : exec i s = .next t) :
    t = { s with
      busy := false
      done := true
      errs := t.errs
      dqsat := t.dqsat
      errCode := t.errCode
      nzcnt := t.nzcnt
      dmem := t.dmem
      memReads := t.memReads } := by
  obtain ⟨e, -, rfl⟩ | ⟨-, rfl⟩ := exec_cases h
  · rfl
  · rw [effectOf_frame]
    rfl

/-- No error's code is 0 (R200). -/
theorem code_ne_zero (e : CmdError) : e.code ≠ 0#4 := by
  cases e <;> decide

/-- A command that ends with an error has changed neither DMEM nor NZCNT nor DQSAT (R210). -/
theorem exec_of_errCode_ne_zero {i : Instr} {s t : State} (h : exec i s = .next t) (hcode : t.errCode ≠ 0#4) :
    ∃ e, check i s = some e ∧ t = errorComplete e s := by
  obtain ⟨e, hcheck, ht⟩ | ⟨-, rfl⟩ := exec_cases h
  · exact ⟨e, hcheck, ht⟩
  · exact absurd (complete_errCode _) hcode

/-- A command that ends with code 0 has passed its checks and had its effect (R192). -/
theorem exec_of_errCode_zero {i : Instr} {s t : State} (h : exec i s = .next t) (hcode : t.errCode = 0#4) :
    check i s = none ∧ t = complete (effectOf i s) := by
  obtain ⟨e, -, rfl⟩ | hpass := exec_cases h
  · exact absurd hcode (code_ne_zero e)
  · exact hpass

end Sys2Proof.Machine
end

section
/-! PROOFS. What a host write leaves unchanged, by the target it reaches (spec/10_state.md R22 to R35). -/

namespace Sys2Proof.Machine

/-- What a write to a register other than STATUS and CMD leaves alone. -/
theorem writeReg_frame {r : Reg} (hstatus : r ≠ .status) (hcmd : r ≠ .cmd) (w : Word) (s : State) :
    (writeReg r w s).busy = s.busy ∧ (writeReg r w s).done = s.done ∧ (writeReg r w s).errCode = s.errCode ∧
      (writeReg r w s).nzcnt = s.nzcnt ∧ (writeReg r w s).dmem = s.dmem := by
  cases r with
  | status => exact absurd rfl hstatus
  | cmd => exact absurd rfl hcmd
  | rowLo r => simp [writeReg]
  | rowHi r => simp [writeReg]
  | _ => simp [writeReg]

theorem writeReg_rst (r : Reg) (w : Word) (s : State) : (writeReg r w s).rst = s.rst := by
  cases r <;> simp [writeReg]

theorem writeReg_pending (r : Reg) (w : Word) (s : State) : (writeReg r w s).pending = s.pending := by
  cases r <;> simp [writeReg]

theorem writeTarget_rst (t : Target) (w : Word) (s : State) : (writeTarget t w s).rst = s.rst := by
  cases t with
  | reg r => exact writeReg_rst r w s
  | reserved => rfl
  | dmem k => rfl

theorem writeTarget_pending (t : Target) (w : Word) (s : State) : (writeTarget t w s).pending = s.pending := by
  cases t with
  | reg r => exact writeReg_pending r w s
  | reserved => rfl
  | dmem k => rfl

/-- No access touches the reset input. -/
theorem accessEffect_rst (a : BusAccess) (s : State) : (accessEffect a s).rst = s.rst := by
  cases a with
  | read off size => rfl
  | write off size w => exact writeTarget_rst (targetOf off) w s

/-- An access gives no access back: those behind it wait on. -/
theorem accessEffect_pending (a : BusAccess) (s : State) : (accessEffect a s).pending = s.pending := by
  cases a with
  | read off size => rfl
  | write off size w => exact writeTarget_pending (targetOf off) w s

/-! ### Accesses that are not held -/

/-- A target that does not stall is CTRL, STATUS or a reserved offset (R22, R194). -/
theorem target_of_not_stalls {t : Target} (h : t.stalls = false) : t = .reg .ctrl ∨ t = .reg .status ∨ t = .reserved := by
  cases t with
  | reg r => cases r <;> simp_all [Target.stalls]
  | reserved => exact Or.inr (Or.inr rfl)
  | dmem k => cases h

theorem writeTarget_of_not_stalls {t : Target} (h : t.stalls = false) (w : Word) (s : State) :
    (writeTarget t w s).busy = s.busy ∧ (writeTarget t w s).cmdLast = s.cmdLast ∧
      (writeTarget t w s).pollsLeft = s.pollsLeft := by
  rcases target_of_not_stalls h with rfl | rfl | rfl
  · exact ⟨rfl, rfl, rfl⟩
  · exact ⟨rfl, rfl, rfl⟩
  · exact ⟨rfl, rfl, rfl⟩

/-- An accepted access that is not held leaves the pending command pending (R194). -/
theorem accessEffect_of_not_stalls {a : BusAccess} (hacc : a.accepted = true) (hns : a.stalls = false) (s : State) :
    (accessEffect a s).busy = s.busy ∧ (accessEffect a s).cmdLast = s.cmdLast ∧
      (accessEffect a s).pollsLeft = s.pollsLeft := by
  have htarget : (targetOf a.off).stalls = false := by rwa [BusAccess.stalls, hacc, Bool.true_and] at hns
  cases a with
  | read off size => exact ⟨rfl, rfl, rfl⟩
  | write off size w => exact writeTarget_of_not_stalls htarget w s

end Sys2Proof.Machine
end

section
/-! PROOFS. The invariant: DMEM under stores, and the device under the reset event, a command and a host access
(spec/10_state.md, spec/20_memory.md, spec/60_exceptions.md). -/

namespace Sys2Proof.Machine

/-! ### DMEM -/

/-- The part of the invariant that speaks of DMEM: canonical, in its window, and written by whole elements. -/
def Memory.sound (m : Memory) : Prop :=
  m.wf = true ∧ (∀ c ∈ m, 0x4000 ≤ c.1 ∧ c.1 < 0x8000) ∧ m.paired

/-- Writing an element of DMEM keeps every byte in the window (R62, R63). -/
theorem Memory.inWindow_setElem {m : Memory} (h : ∀ c ∈ m, 0x4000 ≤ c.1 ∧ c.1 < 0x8000) {a : Nat} (ha : a < 8192)
    (v : Elem) : ∀ c ∈ m.setElem a v, 0x4000 ≤ c.1 ∧ c.1 < 0x8000 := by
  intro c hc
  rcases Memory.mem_setByte hc with rfl | hc
  · exact ⟨by unfold hiOffset; omega, by unfold hiOffset; omega⟩
  · rcases Memory.mem_setByte hc with rfl | hc
    · exact ⟨by unfold loOffset; omega, by unfold loOffset; omega⟩
    · exact h c hc

theorem Memory.sound_setElem {m : Memory} (h : m.sound) {a : Nat} (ha : a < 8192) (v : Elem) :
    (m.setElem a v).sound := by
  obtain ⟨hwf, hwindow, hpaired⟩ := h
  exact ⟨Memory.wf_setElem hwf a v, Memory.inWindow_setElem hwindow ha v, Memory.paired_setElem hpaired a v⟩

theorem Memory.sound_storeElems {m : Memory} (h : m.sound) {addr : Nat → Nat} (val : Nat → Elem) :
    ∀ n, (∀ k < n, addr k < 8192) → (m.storeElems addr val n).sound
  | 0, _ => h
  | n + 1, haddr =>
    Memory.sound_setElem (Memory.sound_storeElems h val n fun k hk => haddr k (Nat.lt_succ_of_lt hk))
      (haddr n (Nat.lt_succ_self n)) _

theorem StateInv.dmem_sound {s : State} (h : StateInv s) : s.dmem.sound := ⟨h.memWf, h.memInWindow, h.memPaired⟩

/-! ### The invariant under what it does and does not speak of -/

/-- The invariant from its parts. -/
theorem stateInv_of_sound {s : State} (hdmem : s.dmem.sound) (hcount : s.nzcnt.toNat ≤ 8192)
    (hcode : s.errCode.toNat ≤ 6) (hbusy : s.busy = true → s.done = false ∧ s.errCode = 0#4) : StateInv s := by
  obtain ⟨hwf, hwindow, hpaired⟩ := hdmem
  exact ⟨hwf, hwindow, hpaired, hcount, hcode, hbusy⟩

/-- The invariant speaks of the device alone. -/
theorem stateInv_of_toDevice_eq {s t : State} (h : StateInv s) (hdev : t.toDevice = s.toDevice) : StateInv t := by
  obtain ⟨devS, _, _, _, _, _, _⟩ := s
  obtain ⟨devT, _, _, _, _, _, _⟩ := t
  obtain rfl : devT = devS := hdev
  exact { h with }

theorem stateInv_reset : StateInv State.reset :=
  stateInv_of_sound ⟨rfl, List.forall_mem_nil _, fun _ => rfl⟩ (by decide) (by decide) nofun

/-- The reset event puts the device at its reset values (R240). -/
theorem resetEvent_toDevice (s : State) : (resetEvent s).toDevice = State.reset.toDevice := rfl

theorem stateInv_resetEvent (s : State) : StateInv (resetEvent s) :=
  stateInv_of_toDevice_eq stateInv_reset (resetEvent_toDevice s)

theorem code_le (e : CmdError) : e.code.toNat ≤ 6 := by
  cases e <;> decide

theorem stateInv_errorComplete {s : State} (h : StateInv s) (e : CmdError) : StateInv (errorComplete e s) :=
  stateInv_of_sound h.dmem_sound h.countBound (code_le e) nofun

/-- LEN of a counting command whose checks pass is at most the number of elements. -/
theorem lenVal_le_of_pass {i : Instr} {s : State} (hi : i = .quant ∨ i = .addsign) (h : check i s = none) :
    s.lenVal ≤ 8192 := by
  rcases hi with rfl | rfl
  · obtain ⟨-, -, -, -, hrange⟩ := (checkScaled_eq_none_iff s).mp h
    exact (Nat.le_add_left _ _).trans hrange
  · obtain ⟨-, hrange, -⟩ := (checkHelper_eq_none_iff s).mp h
    exact (Nat.le_add_left _ _).trans hrange

theorem nzcnt_le_of_pass {i : Instr} {s : State} (hinv : StateInv s) (h : check i s = none) :
    (effectOf i s).nzcnt.toNat ≤ 8192 := by
  by_cases hi : i = .quant ∨ i = .addsign
  · exact (effectOf_nzcnt_le hi s).trans (lenVal_le_of_pass hi h)
  · rw [effectOf_nzcnt_of_not_counting (not_or.mp hi)]
    exact hinv.countBound

/-- A command whose checks pass stores within DMEM, counts at most LEN elements, and completes with code 0. -/
theorem stateInv_complete {i : Instr} {s : State} (hinv : StateInv s) (h : check i s = none) :
    StateInv (complete (effectOf i s)) := by
  refine stateInv_of_sound ?_ (nzcnt_le_of_pass hinv h) (Nat.zero_le _) nofun
  rw [complete_dmem, effectOf_dmem]
  exact Memory.sound_storeElems hinv.dmem_sound _ _ fun k hk => storeAddr_lt_of_pass h hk

theorem stateInv_exec {i : Instr} {s t : State} (hinv : StateInv s) (h : exec i s = .next t) : StateInv t := by
  obtain ⟨e, -, rfl⟩ | ⟨hpass, rfl⟩ := exec_cases h
  · exact stateInv_errorComplete hinv e
  · exact stateInv_complete hinv hpass

/-! ### Host accesses -/

/-- Acceptance clears DONE and ERR_CODE (R190). -/
theorem stateInv_accept {s : State} (h : StateInv s) (w : Word) : StateInv (accept w s) :=
  stateInv_of_sound h.dmem_sound h.countBound (Nat.zero_le _) fun _ => ⟨rfl, rfl⟩

/-- An acknowledgement sets no flag. -/
theorem stateInv_acknowledge {s : State} (h : StateInv s) (w : Word) : StateInv (acknowledge w s) := by
  refine stateInv_of_sound h.dmem_sound h.countBound h.codeBound fun hb => ?_
  obtain ⟨hdone, hcode⟩ := h.busyCleared hb
  exact ⟨by rw [acknowledge_done, hdone, Bool.false_and], hcode⟩

theorem stateInv_writeReg {s : State} (h : StateInv s) (r : Reg) (w : Word) : StateInv (writeReg r w s) := by
  by_cases hstatus : r = .status
  · subst hstatus
    exact stateInv_acknowledge h w
  by_cases hcmd : r = .cmd
  · subst hcmd
    exact stateInv_accept h w
  obtain ⟨hbusy, hdone, hcode, hcount, hdmem⟩ := writeReg_frame hstatus hcmd w s
  refine stateInv_of_sound (hdmem ▸ h.dmem_sound) (hcount ▸ h.countBound) (hcode ▸ h.codeBound) fun hb => ?_
  rw [hdone, hcode]
  exact h.busyCleared (hbusy.symm.trans hb)

theorem stateInv_writeDmemWord {s : State} (h : StateInv s) {k : Nat} (hk : k < 4096) (w : Word) :
    StateInv (writeDmemWord k w s) :=
  stateInv_of_sound
    (Memory.sound_setElem (Memory.sound_setElem h.dmem_sound (by omega) _) (by omega) _)
    h.countBound h.codeBound h.busyCleared

theorem stateInv_writeTarget {s : State} (h : StateInv s) {off : BusOffset} (w : Word) :
    StateInv (writeTarget (targetOf off) w s) := by
  cases htarget : targetOf off with
  | reg r => exact stateInv_writeReg h r w
  | reserved => exact h
  | dmem k => exact stateInv_writeDmemWord h (dmem_word_lt htarget) w

theorem stateInv_accessEffect {s : State} (h : StateInv s) (a : BusAccess) : StateInv (accessEffect a s) := by
  cases a with
  | read off size => exact stateInv_of_toDevice_eq h rfl
  | write off size w => exact stateInv_of_toDevice_eq (stateInv_writeTarget h w) rfl

/-- Every step keeps the invariant. -/
theorem stateInv_step {s t : State} (hinv : StateInv s) (h : step s = .next t) : StateInv t := by
  obtain ⟨-, rfl⟩ | ⟨-, i, -, hexec⟩ | ⟨-, -, rfl⟩ | ⟨a, rest, -, -, rfl⟩ | ⟨-, -, -, rfl⟩ := step_cases h
  · exact stateInv_resetEvent s
  · exact stateInv_exec hinv hexec
  · exact stateInv_errorComplete hinv .illegal
  · have hrest : StateInv (s.withRest rest) := stateInv_of_toDevice_eq hinv rfl
    exact stateInv_accessEffect hrest a
  · exact hinv

/-! ### Steps and runs that go on -/

/-- QSCAN accepts every access the host still has to make (R65). -/
def AllAccepted (s : State) : Prop := ∀ a ∈ s.pending, a.accepted = true

/-- A step raises no host access: those it leaves were there before. -/
theorem mem_pending_of_step {s t : State} (h : step s = .next t) {a : BusAccess} (ha : a ∈ t.pending) :
    a ∈ s.pending := by
  obtain ⟨-, rfl⟩ | ⟨-, i, -, hexec⟩ | ⟨-, -, rfl⟩ | ⟨b, rest, ⟨-, hp, -⟩, -, rfl⟩ | ⟨-, -, -, rfl⟩ := step_cases h
  · rw [resetEvent_pending] at ha
    split at ha
    next => cases ha
    next => exact ha
  · rw [exec_frame hexec] at ha
    exact ha
  · exact ha
  · rw [accessEffect_pending, withRest_pending] at ha
    exact hp ▸ List.mem_cons_of_mem b ha
  · exact ha

/-- With accepted accesses only, a step answers a next state, which again has accepted accesses only (R213). -/
theorem step_goes_on {s : State} (h : AllAccepted s) : ∃ t, step s = .next t ∧ AllAccepted t := by
  have hnext : ∃ t, step s = .next t := by
    rcases who_moves s with hr | he | ⟨a, rest, hh⟩ | ⟨hr, hb, hp⟩
    · exact ⟨_, step_of_reset hr⟩
    · obtain ⟨t, hstep, -⟩ := step_completes_of_engineMoves he
      exact ⟨t, hstep⟩
    · obtain ⟨-, hp, -⟩ := id hh
      exact ⟨_, step_of_accepted hh (h a (hp ▸ List.mem_cons_self))⟩
    · exact ⟨_, step_of_idle hr hb hp⟩
  obtain ⟨t, hstep⟩ := hnext
  exact ⟨t, hstep, fun a ha => h a (mem_pending_of_step hstep ha)⟩

/-- Accepted accesses stay accepted and the invariant holds along a run of any number of steps. -/
theorem run_goes_on (n : Nat) {s : State} (hinv : StateInv s) (hacc : AllAccepted s) :
    ∃ t, Host.Core.run Sys2Proof.core n s = .next t ∧ StateInv t := by
  induction n generalizing s with
  | zero => exact ⟨s, run_zero s, hinv⟩
  | succ n ih =>
    obtain ⟨u, hstep, hu⟩ := step_goes_on hacc
    rw [run_succ n hstep]
    exact ih (stateInv_step hinv hstep) hu

/-- The same along a run over any levels of the reset input. -/
theorem runInputs_goes_on (rs : List Bool) {s : State} (hinv : StateInv s) (hacc : AllAccepted s) :
    ∃ t, runInputs rs s = .next t ∧ StateInv t := by
  induction rs generalizing s with
  | nil => exact ⟨s, runInputs_nil s, hinv⟩
  | cons r rs ih =>
    have hsampled : AllAccepted (s.sample r) := hacc
    obtain ⟨u, hstep, hu⟩ := step_goes_on hsampled
    rw [runInputs_cons rs hstep]
    exact ih (stateInv_step (stateInv_sample hinv r) hstep) hu

/-- An input that is never asserted makes a plain run (log 4). -/
theorem runInputs_replicate_false (n : Nat) (s : State) :
    runInputs (List.replicate n false) s = Host.Core.run Sys2Proof.core n s := by
  induction n generalizing s with
  | zero => rfl
  | succ n ih =>
    have hrun : Host.Core.run Sys2Proof.core (n + 1) s = _ := Host.Core.run.eq_2 Sys2Proof.core s n
    have hcore : Host.Core.step Sys2Proof.core = step := rfl
    rw [hrun, List.replicate_succ, runInputs, stepInput, sample_false, hcore]
    cases step s with
    | next t => exact ih t
    | fault e => rfl
    | refused e => rfl

end Sys2Proof.Machine
end

section
/-! PROOFS. The invariant and the runs it holds along (spec/60_exceptions.md R213, spec/70_reset_and_hazards.md R240). -/

namespace Sys2Proof.Proofs

open Sys2Proof Sys2Proof.Machine

/-- Settles O9: the cases of a step are the reset event, a command, an ILLEGAL word, a host access and idling; each keeps
the invariant by its own lemma. -/
theorem stepKeepsInv : Obligations.StepKeepsInv := by
  unfold Obligations.StepKeepsInv
  exact fun s t hinv hstep => stateInv_step hinv hstep

/-- Settles O58, by induction on the number of steps: an accepted access is no bus error, and no step raises an access. -/
theorem safeRunsGoOn : Obligations.SafeRunsGoOn := by
  unfold Obligations.SafeRunsGoOn
  exact fun n s hinv hacc => run_goes_on n hinv hacc

/-- Settles O59, by induction on the levels of the input; the last clause by induction on the number of steps. -/
theorem resetsMayComeAtAnyMoment : Obligations.ResetsMayComeAtAnyMoment := by
  unfold Obligations.ResetsMayComeAtAnyMoment
  refine ⟨fun rs s hinv hacc => ?_, runInputs_replicate_false⟩
  obtain ⟨t, hrun, ht⟩ := runInputs_goes_on rs hinv hacc
  refine ⟨⟨t, hrun, ht⟩, resetEvent (t.sample true), ?_, resetEvent_toDevice _, rfl, rfl⟩
  rw [runInputs_append rs [true] hrun]
  exact runInputs_cons [] (stepInput_true t)

/-- Settles O8: the reset values, with an empty memory. -/
theorem resetMeetsInv : Obligations.ResetMeetsInv := by
  unfold Obligations.ResetMeetsInv
  exact stateInv_reset

end Sys2Proof.Proofs
end

section
/-! PROOFS. The step in its cases, and how a pending command completes (spec/44_control.md R190 to R194,
spec/20_memory.md R62, R72, spec/70_reset_and_hazards.md R240, R241). -/

namespace Sys2Proof.Machine

/-! ### The engine's turn -/

theorem engineStep_of_ok {s : State} {i : Instr} (hd : Sys2Proof.decode s.cmdLast = .ok i) : engineStep s = exec i s := by
  rw [engineStep, hd]

theorem engineStep_of_illegal {s : State} {e : Illegal} (hd : Sys2Proof.decode s.cmdLast = .error e) :
    engineStep s = .next (errorComplete .illegal s) := by
  rw [engineStep, hd]

/-- The engine keeps the last accepted word (R26). -/
theorem engineStep_cmdLast {s t : State} (h : engineStep s = .next t) : t.cmdLast = s.cmdLast := by
  obtain ⟨e, rfl⟩ | ⟨i, rfl⟩ := engineStep_cases h
  · rfl
  · rw [effectOf_frame]
    rfl

/-- The engine answers no host access. -/
theorem engineStep_replies {s t : State} (h : engineStep s = .next t) : t.replies = s.replies := by
  obtain ⟨e, rfl⟩ | ⟨i, rfl⟩ := engineStep_cases h
  · rfl
  · rw [effectOf_frame]
    rfl

/-- The low 32 bits of a word are the word. -/
theorem tableWord_toNat (w : Word) : Sys2Proof.tableWord 32 w.toNat = w := by
  rw [Sys2Proof.tableWord, Nat.mod_eq_of_lt w.isLt, BitVec.ofNat_toNat, BitVec.setWidth_eq]

/-- A word put where the next step takes it gives the engine its turn (log 8). -/
theorem engineMoves_issued (w : Word) (s : State) : EngineMoves (issued w s) :=
  ⟨rfl, rfl, Or.inr (Or.inr rfl)⟩

/-! ### The reset event and the held access -/

/-- An access that is held leaves with those behind it (R241; log 4). -/
theorem resetEvent_pending_of_stalls {s : State} {a : BusAccess} {rest : List BusAccess} (hp : s.pending = a :: rest)
    (hb : s.busy = true) (ha : a.stalls = true) : (resetEvent s).pending = [] := by
  have hheld : s.held = true := by rw [State.held, hp]; simp [hb, ha]
  rw [resetEvent_pending, if_pos hheld]

/-- With no access held, the accesses stay. -/
theorem resetEvent_pending_of_not_held {s : State} {a : BusAccess} {rest : List BusAccess} (hp : s.pending = a :: rest)
    (h : s.busy = false ∨ a.stalls = false) : (resetEvent s).pending = s.pending := by
  have hheld : ¬ s.held = true := by
    rw [State.held, hp]
    rcases h with h | h <;> simp [h]
  rw [resetEvent_pending, if_neg hheld]

/-! ### Idling -/

/-- With nothing to do, any number of steps changes nothing (R229). -/
theorem run_of_idle {s : State} (hr : s.rst = false) (hb : s.busy = false) (hp : s.pending = []) (n : Nat) :
    Host.Core.run Sys2Proof.core n s = .next s := by
  induction n with
  | zero => exact run_zero s
  | succ n ih => rw [run_succ n (step_of_idle hr hb hp), ih]

/-! ### Which offsets stall (R22, R194) -/

/-- Every listed offset reaches its register. -/
theorem lookup_registerMap : ∀ p ∈ registerMap, p.1 < 0x4000 ∧ registerMap.lookup p.1 = some p.2 := by
  decide

theorem targetOf_of_mem {off : BusOffset} {r : Reg} (h : (off.toNat, r) ∈ registerMap) : targetOf off = .reg r := by
  obtain ⟨hlow, hlookup⟩ := lookup_registerMap _ h
  rw [targetOf, if_pos hlow, hlookup]

/-- The registers that stall stand from CMD to NZCNT and from ROW0 to ROW3. -/
theorem stalls_registerMap : ∀ p ∈ registerMap,
    (Target.reg p.2).stalls = true ↔ (0x08 ≤ p.1 ∧ p.1 ≤ 0x24) ∨ (0x40 ≤ p.1 ∧ p.1 ≤ 0x5C) := by
  decide

/-- Every multiple of 4 from CMD to NZCNT and from ROW0 to ROW3 is listed. -/
theorem mem_registerMap_offsets {n : Nat} (hal : n % 4 = 0) (h : (0x08 ≤ n ∧ n ≤ 0x24) ∨ (0x40 ≤ n ∧ n ≤ 0x5C)) :
    n ∈ registerMap.map (·.1) := by
  rw [registerMap_offsets]
  simp only [List.mem_cons, List.not_mem_nil, or_false]
  omega

/-- The aligned offsets that stall. -/
theorem stalls_targetOf_iff {off : BusOffset} (hal : off.toNat % 4 = 0) :
    (targetOf off).stalls = true ↔
      (0x08 ≤ off.toNat ∧ off.toNat ≤ 0x24) ∨ (0x40 ≤ off.toNat ∧ off.toNat ≤ 0x5C) ∨ 0x4000 ≤ off.toNat := by
  rcases Nat.lt_or_ge off.toNat 0x4000 with hlow | hhigh
  · by_cases hlisted : off.toNat ∈ registerMap.map (·.1)
    · obtain ⟨⟨n, r⟩, hmem, rfl⟩ := List.mem_map.mp hlisted
      rw [targetOf_of_mem hmem, stalls_registerMap _ hmem]
      omega
    · rw [targetOf_reserved hlow hlisted]
      refine iff_of_false nofun fun h => hlisted (mem_registerMap_offsets hal ?_)
      omega
  · rw [targetOf, if_neg (Nat.not_lt.mpr hhigh)]
    exact iff_of_true rfl (Or.inr (Or.inr hhigh))

/-! ### A pending command completes -/

/-- The word `w` waits for its execution, and the host makes accepted accesses only. -/
structure Awaits (w : Word) (s : State) : Prop where
  rst : s.rst = false
  busy : s.busy = true
  cmdLast : s.cmdLast = w
  accepted : AllAccepted s

/-- The word `w` has been executed. -/
structure Completed (w : Word) (s : State) : Prop where
  busy : s.busy = false
  done : s.done = true
  cmdLast : s.cmdLast = w

/-- The engine's turn executes the pending word and leaves the host's side as it is. -/
theorem step_completes {w : Word} {s : State} (h : EngineMoves s) (hw : s.cmdLast = w) :
    ∃ t, step s = .next t ∧ Completed w t ∧ t.rst = s.rst ∧ t.pending = s.pending ∧ t.replies = s.replies := by
  obtain ⟨t, hengine, hbusy, hdone⟩ := engineStep_completes s
  exact ⟨t, (step_of_engineMoves h).trans hengine, ⟨hbusy, hdone, (engineStep_cmdLast hengine).trans hw⟩,
    engineStep_rst hengine, engineStep_pending hengine, engineStep_replies hengine⟩

/-- An access that is made while the word waits leaves it waiting, with one access fewer to go before it. -/
theorem awaits_accessEffect {w : Word} {s : State} {a : BusAccess} {rest : List BusAccess} (h : Awaits w s)
    (hp : s.pending = a :: rest) (hns : a.stalls = false) :
    Awaits w (accessEffect a (s.withRest rest)) ∧
      (accessEffect a (s.withRest rest)).pollsLeft = s.pollsLeft - 1 := by
  have hacc : a.accepted = true := h.accepted a (hp ▸ List.mem_cons_self)
  obtain ⟨hbusy, hcmd, hpolls⟩ := accessEffect_of_not_stalls hacc hns (s.withRest rest)
  refine ⟨⟨(accessEffect_rst a _).trans h.rst, hbusy.trans h.busy, hcmd.trans h.cmdLast, fun b hb => ?_⟩, hpolls⟩
  rw [accessEffect_pending, withRest_pending] at hb
  exact h.accepted b (hp ▸ List.mem_cons_of_mem a hb)

/-- While a word waits, a step executes it, or is an access, of which one fewer is then to go before it (R72). -/
theorem step_of_awaits {w : Word} {s : State} (h : Awaits w s) :
    ∃ t, step s = .next t ∧
      (Completed w t ∨ Awaits w t ∧ t.pollsLeft + 1 = s.pollsLeft ∧ t.replies ≠ []) := by
  rcases who_moves s with hr | he | ⟨a, rest, hmove⟩ | ⟨-, hb, -⟩
  · rw [h.rst] at hr
    cases hr
  · obtain ⟨t, hstep, hdone, -⟩ := step_completes he h.cmdLast
    exact ⟨t, hstep, Or.inl hdone⟩
  · obtain ⟨-, hp, hturn⟩ := id hmove
    obtain ⟨hns, hpolls⟩ : a.stalls = false ∧ 0 < s.pollsLeft :=
      hturn.resolve_left (by rw [h.busy]; exact Bool.true_eq_false_eq_False)
    have hacc : a.accepted = true := h.accepted a (hp ▸ List.mem_cons_self)
    obtain ⟨hwaits, hless⟩ := awaits_accessEffect h hp hns
    refine ⟨_, step_of_accepted hmove hacc, Or.inr ⟨hwaits, by omega, ?_⟩⟩
    cases a with
    | read off size => exact List.cons_ne_nil _ _
    | write off size v => exact List.cons_ne_nil _ _
  · rw [h.busy] at hb
    cases hb

/-- A waiting word is executed within as many accesses as are to go before it, and one step more. -/
theorem run_completes {w : Word} (p : Nat) {s : State} (h : Awaits w s) (hp : s.pollsLeft = p) :
    ∃ n t, n ≤ p + 1 ∧ Host.Core.run Sys2Proof.core n s = .next t ∧ Completed w t := by
  induction p generalizing s with
  | zero =>
    obtain ⟨t, hstep, hdone | ⟨-, hpolls, -⟩⟩ := step_of_awaits h
    · exact ⟨1, t, le_refl 1, (run_succ 0 hstep).trans (run_zero t), hdone⟩
    · omega
  | succ p ih =>
    obtain ⟨t, hstep, hdone | ⟨hwaits, hpolls, -⟩⟩ := step_of_awaits h
    · exact ⟨1, t, by omega, (run_succ 0 hstep).trans (run_zero t), hdone⟩
    · obtain ⟨n, u, hn, hrun, hu⟩ := ih hwaits (by omega)
      exact ⟨n + 1, u, by omega, (run_succ n hstep).trans hrun, hu⟩

end Sys2Proof.Machine
end

section
/-! PROOFS. The step and the completion of commands (spec/44_control.md, spec/70_reset_and_hazards.md). -/

namespace Sys2Proof.Proofs

open Sys2Proof Sys2Proof.Machine

/-- Settles O13: a stalled access gives the engine its turn, which completes and leaves the host's side alone; which
accesses stall is read off the register map. -/
theorem heldAccessIsReleased : Obligations.HeldAccessIsReleased := by
  unfold Obligations.HeldAccessIsReleased
  refine ⟨fun s a rest hr hb hp ha => ?_, fun a => ?_⟩
  · obtain ⟨t, hstep, hdone, -, hpending, hreplies⟩ := step_completes (engineMoves_of_stalls hr hb hp ha) rfl
    exact ⟨t, hstep, hdone.busy, hdone.done, hpending, hreplies⟩
  · rw [BusAccess.stalls, Bool.and_eq_true, accepted_iff, and_assoc]
    exact and_congr_right fun _ => and_congr_right fun hal => stalls_targetOf_iff hal

/-- Settles O14, by induction on the accesses that go before the command. -/
theorem commandCompletesInTime : Obligations.CommandCompletesInTime := by
  unfold Obligations.CommandCompletesInTime
  intro s hr hb hacc
  obtain ⟨n, t, hn, hrun, hdone⟩ := run_completes s.pollsLeft (w := s.cmdLast) ⟨hr, hb, rfl, hacc⟩ rfl
  exact ⟨n, t, hn, hrun, hdone.busy, hdone.done, hdone.cmdLast⟩

/-- Settles O15: with a failing check the error completion, whose code is not 0; with none the completion, and no effect
touches ERRS. -/
theorem everyCommandCompletes : Obligations.EveryCommandCompletes := by
  unfold Obligations.EveryCommandCompletes
  intro i s
  cases hcheck : check i s with
  | none =>
    refine ⟨_, exec_of_pass hcheck, rfl, rfl, iff_of_true rfl rfl, fun _ => ?_⟩
    rw [complete_errs, effectOf_errs]
  | some e => exact ⟨_, exec_of_error hcheck, rfl, rfl, iff_of_false (code_ne_zero e) nofun, nofun⟩

/-- Settles O7: the step is the reset event. -/
theorem resetTakesPrecedence : Obligations.ResetTakesPrecedence := by
  unfold Obligations.ResetTakesPrecedence
  exact fun s hr => ⟨resetEvent s, step_of_reset hr, resetEvent_toDevice s, rfl, rfl, rfl,
    fun a rest hp hb ha => resetEvent_pending_of_stalls hp hb ha,
    fun a rest hp h => resetEvent_pending_of_not_held hp h⟩

/-- Settles O10: the engine's turn is the execution of what it decodes, and `withFetchWord` gives it that turn. -/
theorem stepRunsDecodedCommand : Obligations.StepRunsDecodedCommand := by
  unfold Obligations.StepRunsDecodedCommand
  refine ⟨fun s i hmove hd => (step_of_engineMoves hmove).trans (engineStep_of_ok hd), fun s w i hd => ?_⟩
  rw [State.withFetchWord, tableWord_toNat]
  exact (step_of_engineMoves (engineMoves_issued w s)).trans (engineStep_of_ok hd)

/-- Settles O11: an idle step leaves the state, so by induction a run does; with an access the host moves. -/
theorem idleStepsChangeNothing : Obligations.IdleStepsChangeNothing := by
  unfold Obligations.IdleStepsChangeNothing
  exact ⟨fun s hr hb hp => ⟨step_of_idle hr hb hp, run_of_idle hr hb hp⟩,
    fun s a rest hr hb hp => step_of_hostMoves (hostMoves_of_idle hr hb hp)⟩

/-- Settles O17: the engine's step on such a word is the error completion with ILLEGAL, whose code is 1. -/
theorem illegalWordReportsCodeOne : Obligations.IllegalWordReportsCodeOne := by
  unfold Obligations.IllegalWordReportsCodeOne
  exact fun s e hmove hd => (step_of_engineMoves hmove).trans (engineStep_of_illegal hd)

/-- Settles O18: NOP has no check, and its effect is the identity. -/
theorem nopOnlyCompletes : Obligations.NopOnlyCompletes := by
  unfold Obligations.NopOnlyCompletes
  intro s
  have hpass : check .nop s = none := rfl
  exact exec_of_pass hpass

end Sys2Proof.Proofs
end

section
/-! PROOFS. The bus, continued: reads, the operand registers and the window (spec/10_state.md, spec/20_memory.md). -/

namespace Sys2Proof.Machine

/-- The STATUS word is its flags at bits 0 to 3 and ERR_CODE at bits 11:8 (R24). -/
theorem toNat_statusWord (s : State) :
    s.statusWord.toNat =
      s.busy.toNat + 2 * s.done.toNat + 4 * s.errs.toNat + 8 * s.dqsat.toNat + 256 * s.errCode.toNat := by
  unfold State.statusWord
  generalize s.errCode = code
  generalize s.busy = busy, s.done = done, s.errs = errs, s.dqsat = dqsat
  revert code busy done errs dqsat
  decide

/-! ### The operand registers and the rows (R27 to R34) -/

/-- A register that keeps every value written to it: an operand register or half of a row. -/
def Reg.keeps : Reg → Bool
  | .ctrl => false
  | .status => false
  | .cmd => false
  | .nzcnt => false
  | _ => true

/-- Such a register reads back what was written (R27 to R32, R34). -/
theorem readReg_writeReg {r : Reg} (h : r.keeps = true) (w : Word) (s : State) : readReg r (writeReg r w s) = w := by
  cases r with
  | ctrl => cases h
  | status => cases h
  | cmd => cases h
  | nzcnt => cases h
  | rowLo q =>
    rw [readReg, writeReg, row_setRow s _ _ _ q.isLt q.isLt, if_pos rfl, setLow]
    exact BitVec.extractLsb'_append_eq_right
  | rowHi q =>
    rw [readReg, writeReg, row_setRow s _ _ _ q.isLt q.isLt, if_pos rfl, setHigh]
    exact BitVec.extractLsb'_append_eq_left
  | _ => rfl

/-- What a register reads is a matter of the device. -/
theorem readReg_of_toDevice_eq (r : Reg) {s t : State} (h : t.toDevice = s.toDevice) : readReg r t = readReg r s := by
  obtain ⟨devS, _, _, _, _, _, _⟩ := s
  obtain ⟨devT, _, _, _, _, _, _⟩ := t
  obtain rfl : devT = devS := h
  cases r <;> rfl

/-- A read of a register answers the register's value. -/
theorem step_of_read_reg {s : State} {off : BusOffset} {r : Reg} {v : Word} {rest : List BusAccess}
    (h : HostMoves s (.read off 4) rest) (ht : targetOf off = .reg r) (hal : off.toNat % 4 = 0)
    (hv : readReg r s = v) : step s = .next { s.withRest rest with replies := .data v :: s.replies } := by
  have hrest : readReg r (s.withRest rest) = v := (readReg_of_toDevice_eq r rfl).trans hv
  rw [step_of_read h ht hal, readTarget_reg, hrest]
  rfl

/-- A write to such a register starts no command. -/
theorem writeReg_busy_of_keeps {r : Reg} (h : r.keeps = true) (w : Word) (s : State) :
    (writeReg r w s).busy = s.busy := by
  have hstatus : r ≠ .status := by rintro rfl; cases h
  have hcmd : r ≠ .cmd := by rintro rfl; cases h
  obtain ⟨hbusy, -⟩ := writeReg_frame hstatus hcmd w s
  exact hbusy

/-- A write to such a register and a read of it, while BUSY is 0: the read answers what was written, and the register is
all that the write changed. -/
theorem run_write_read {s : State} {off : BusOffset} {r : Reg} {w : Word} {rest : List BusAccess}
    (htarget : targetOf off = .reg r) (hal : off.toNat % 4 = 0) (hkeeps : r.keeps = true) (hr : s.rst = false)
    (hb : s.busy = false) (hp : s.pending = .write off 4 w :: .read off 4 :: rest) :
    Host.Core.run Sys2Proof.core 2 s = .next
      { (writeReg r w (s.withRest (.read off 4 :: rest))).withRest rest with
        replies := .data w :: .ok :: s.replies } := by
  have hwrite := step_of_write (hostMoves_of_idle hr hb hp) htarget hal
  rw [writeTarget_reg] at hwrite
  rw [run_succ 1 hwrite]
  have hmove : HostMoves
      { writeReg r w (s.withRest (.read off 4 :: rest)) with replies := .ok :: s.replies } (.read off 4) rest :=
    ⟨(writeReg_rst r w _).trans hr, writeReg_pending r w _, Or.inl ((writeReg_busy_of_keeps hkeeps w _).trans hb)⟩
  have hback := readReg_writeReg hkeeps w (s.withRest (.read off 4 :: rest))
  have hread := step_of_read_reg hmove htarget hal ((readReg_of_toDevice_eq r rfl).trans hback)
  exact (run_succ 0 hread).trans (run_zero _)

/-- What is written to the offset `n` of such a register, field by field of the device. -/
def writeKept (n : Nat) (w : Word) (s : State) : State :=
  { s with
    scale := if n = 0x0C then w else s.scale
    shift := if n = 0x10 then w else s.shift
    add := if n = 0x14 then w else s.add
    dst := if n = 0x18 then w else s.dst
    src := if n = 0x1C then w else s.src
    len := if n = 0x20 then w else s.len
    row0 := if n = 0x40 then setLow s.row0 w else if n = 0x44 then setHigh s.row0 w else s.row0
    row1 := if n = 0x48 then setLow s.row1 w else if n = 0x4C then setHigh s.row1 w else s.row1
    row2 := if n = 0x50 then setLow s.row2 w else if n = 0x54 then setHigh s.row2 w else s.row2
    row3 := if n = 0x58 then setLow s.row3 w else if n = 0x5C then setHigh s.row3 w else s.row3 }

/-- A write to such a register, row by row of the register map. -/
theorem writeReg_eq_writeKept (w : Word) (s : State) :
    ∀ p ∈ registerMap, p.2.keeps = true → writeReg p.2 w s = writeKept p.1 w s := by
  simp only [registerMap, List.forall_mem_cons]
  exact ⟨nofun, nofun, nofun, fun _ => rfl, fun _ => rfl, fun _ => rfl, fun _ => rfl, fun _ => rfl, fun _ => rfl, nofun,
    fun _ => rfl, fun _ => rfl, fun _ => rfl, fun _ => rfl, fun _ => rfl, fun _ => rfl, fun _ => rfl, fun _ => rfl,
    List.forall_mem_nil _⟩

/-- The offsets of the operand registers and of the halves of the rows are those of registers that keep their value. -/
theorem exists_kept_of_operandOffset :
    ∀ n ∈ [0x0C, 0x10, 0x14, 0x18, 0x1C, 0x20, 0x40, 0x44, 0x48, 0x4C, 0x50, 0x54, 0x58, 0x5C],
      n % 4 = 0 ∧ ∃ p ∈ registerMap, p.1 = n ∧ p.2.keeps = true := by
  decide

end Sys2Proof.Machine
end

section
/-! PROOFS. Reads, the operand registers and the window. -/

namespace Sys2Proof.Proofs

open Sys2Proof Sys2Proof.Machine

/-- Settles O49: the offset is that of a register that keeps its value, the read answers it, and the register map says
which field of the device it is. -/
theorem operandRegistersReadBack : Obligations.OperandRegistersReadBack := by
  unfold Obligations.OperandRegistersReadBack
  intro off w s rest hoff hr hb hp
  obtain ⟨hal, ⟨n, r⟩, hmem, heq, hkeeps⟩ := exists_kept_of_operandOffset _ hoff
  obtain rfl : n = off.toNat := heq
  have hrun := run_write_read (targetOf_of_mem hmem) hal hkeeps hr hb hp
  rw [writeReg_eq_writeKept w _ _ hmem hkeeps] at hrun
  exact ⟨_, hrun, rfl, rfl, rfl⟩

/-- Settles O53: the step of a read changes the accesses, the answers and the counters alone. -/
theorem readsChangeNothing : Obligations.ReadsChangeNothing := by
  unfold Obligations.ReadsChangeNothing
  exact fun s off rest hal hmove => ⟨_, _, step_of_read hmove rfl hal, rfl, rfl, rfl⟩

/-- Settles O46: the read of the target STATUS answers the STATUS word. -/
theorem statusReadsItsFields : Obligations.StatusReadsItsFields := by
  unfold Obligations.StatusReadsItsFields
  intro s rest hmove
  exact ⟨s.statusWord, step_of_read hmove targetOf_status rfl, toNat_statusWord s⟩

/-- Settles O48: the reads of the targets CMD and NZCNT. -/
theorem cmdAndNzcntReadTheirValues : Obligations.CmdAndNzcntReadTheirValues := by
  unfold Obligations.CmdAndNzcntReadTheirValues
  exact fun s rest hr hb =>
    ⟨fun hp => step_of_read (hostMoves_of_idle hr hb hp) targetOf_cmd rfl,
      fun hp => step_of_read (hostMoves_of_idle hr hb hp) targetOf_nzcnt rfl⟩

/-- Settles O55: below 0x8000 the difference is its own offset. -/
theorem windowIsAtBase : Obligations.WindowIsAtBase := by
  unfold Obligations.WindowIsAtBase
  intro base addr
  unfold windowOffset
  split
  next hin =>
    refine ⟨fun off hoff => ?_, iff_of_false nofun (by omega)⟩
    obtain rfl := Option.some.inj hoff
    rw [BitVec.toNat_ofNat]
    omega
  next hout => exact ⟨nofun, iff_of_true rfl (by omega)⟩

end Sys2Proof.Proofs
end

section
/-! PROOFS. The formulas of the spec in the model's arithmetic: the clamp, the level, the coefficient, the magnitudes and the
counts (spec/40_quantizer.md R100 to R104, spec/41_dequantizer.md R120 to R124, spec/43_signmag.md R170 to R174). -/

namespace Sys2Proof.Machine

/-! ### The clamp (R6) -/

theorem sat16_eq_clamp16 (v : Int) : sat16 v = clamp16 v := by
  unfold sat16 clamp16
  split_ifs <;> omega

theorem clamp16_mem_range (v : Int) : -32768 ≤ clamp16 v ∧ clamp16 v ≤ 32767 := by
  unfold clamp16
  omega

/-- An integer of the signed 16-bit range is the value of the element it is stored in. -/
theorem toInt_ofInt_of_mem_range {v : Int} (hl : -32768 ≤ v) (hu : v ≤ 32767) : (BitVec.ofInt 16 v).toInt = v :=
  sext16_trunc16 hl hu

theorem toInt_ofInt_clamp16 (v : Int) : (BitVec.ofInt 16 (clamp16 v)).toInt = clamp16 v :=
  toInt_ofInt_of_mem_range (clamp16_mem_range v).left (clamp16_mem_range v).right

/-- An element is 0 exactly when its value is. -/
theorem elem_eq_zero_iff (e : Elem) : e = 0#16 ↔ e.toInt = 0 := by
  rw [← BitVec.toInt_inj, BitVec.toInt_zero]

theorem ofInt_clamp16_eq_zero_iff (v : Int) : BitVec.ofInt 16 (clamp16 v) = 0#16 ↔ clamp16 v = 0 := by
  rw [elem_eq_zero_iff, toInt_ofInt_clamp16]

theorem clamp16_eq_zero_iff (v : Int) : clamp16 v = 0 ↔ v = 0 := by
  unfold clamp16
  omega

/-! ### QUANT (R100) -/

theorem quantMagnitude_eq (sc sh : Nat) (ad c : Int) : quantMagnitude sc sh ad c = (|c| * sc + ad) / 2 ^ sh := by
  rw [quantMagnitude, floorShr_eq_div, absOf_eq_abs]

theorem quantLevel_eq (sc sh : Nat) (ad : Int) (c : Elem) :
    quantLevel sc sh ad c = BitVec.ofInt 16 (levelOf sc sh ad c.toInt) := by
  rw [quantLevel, quantMagnitude_eq, sat16_eq_clamp16, signOf_eq_sign]
  rfl

theorem toInt_quantLevel (sc sh : Nat) (ad : Int) (c : Elem) :
    (quantLevel sc sh ad c).toInt = levelOf sc sh ad c.toInt := by
  rw [quantLevel_eq]
  exact toInt_ofInt_clamp16 _

/-! ### DEQUANT (R120) -/

theorem dequantExact_eq_coefOf (sc sh : Nat) (ad : Int) (l : Elem) :
    dequantExact sc sh ad l = coefOf sc sh ad l.toInt :=
  floorShr_eq_div _ sh

/-- Whether the clamp changed a value (R121). -/
theorem anyClamped_eq_true_iff (n : Nat) (val : Nat → Int) :
    anyClamped n val = true ↔ ∃ i < n, clamp16 (val i) ≠ val i := by
  simp [anyClamped, sat16_eq_clamp16]

/-! ### ABS and ADDSIGN (R170, R172) -/

theorem absSat16_eq_min (e : Elem) : absSat16 (sext16 e) = min 32767 |e.toInt| := by
  have hnonneg := abs_nonneg e.toInt
  rw [absSat16, sat16_eq_clamp16, absOf_eq_abs, clamp16, sext16]
  omega

theorem signedMagnitude_eq (sg a : Elem) :
    signedMagnitude sg a = BitVec.ofInt 16 (clamp16 (sg.toInt.sign * a.toInt)) := by
  rw [signedMagnitude, sat16_eq_clamp16, signOf_eq_sign]
  rfl

/-! ### Counts (R33) -/

theorem nonzeroCount_eq_card (n : Nat) (val : Nat → Elem) :
    nonzeroCount n val = ((Finset.range n).filter fun i => val i ≠ 0#16).card := by
  rw [← Nat.count_eq_card_filter_range, Nat.count, nonzeroCount]
  exact List.countP_congr fun i _ => by simp

/-- The count of elements stored through a clamp is that of the values that are not 0. -/
theorem nonzeroCount_ofInt_clamp16 (n : Nat) (val : Nat → Int) :
    nonzeroCount n (fun i => BitVec.ofInt 16 (clamp16 (val i))) =
      ((Finset.range n).filter fun i => clamp16 (val i) ≠ 0).card := by
  simp only [nonzeroCount_eq_card, ne_eq, ofInt_clamp16_eq_zero_iff]

theorem nonzeroCount_congr {n : Nat} {val val' : Nat → Elem} (h : ∀ i < n, val i = val' i) :
    nonzeroCount n val = nonzeroCount n val' :=
  List.countP_congr fun i hi => by rw [h i (List.mem_range.mp hi)]

theorem anyClamped_congr {n : Nat} {val val' : Nat → Int} (h : ∀ i < n, val i = val' i) :
    anyClamped n val = anyClamped n val' := by
  rw [Bool.eq_iff_iff, anyClamped_eq_true_iff, anyClamped_eq_true_iff]
  exact exists_congr fun i => and_congr_right fun hi => by rw [h i hi]

end Sys2Proof.Machine
end

section
/-! PROOFS. What a command's results depend on (spec/44_control.md section 1, spec/20_memory.md section 6). -/

namespace Sys2Proof.Machine

/-- Two states with the same operand registers and rows, in which every element the command reads is written, with the
same value. -/
structure SameInputs (i : Instr) (s s' : State) : Prop where
  scale : s.scale = s'.scale
  shift : s.shift = s'.shift
  add : s.add = s'.add
  dst : s.dst = s'.dst
  src : s.src = s'.src
  len : s.len = s'.len
  row0 : s.row0 = s'.row0
  row1 : s.row1 = s'.row1
  row2 : s.row2 = s'.row2
  row3 : s.row3 = s'.row3
  reads : ∀ a ∈ commandReads i s, ∃ e, s.dmem.elem a = some e ∧ s'.dmem.elem a = some e

/-- The checks look at the operand registers alone (R207). -/
theorem SameInputs.check_eq {i : Instr} {s s' : State} (h : SameInputs i s s') : check i s = check i s' := by
  cases i <;> simp only [check, checkScaled, checkHelper, checkScanb, checkScanr, checkIscanb, State.lenVal,
    State.shiftVal, State.scaleVal, State.dstVal, State.srcVal, h.scale, h.shift, h.add, h.dst, h.src, h.len]

theorem SameInputs.storeCount_eq {i : Instr} {s s' : State} (h : SameInputs i s s') :
    storeCount i s = storeCount i s' := by
  cases i <;> simp only [storeCount, State.lenVal, h.len]

theorem SameInputs.storeAddr_eq {i : Instr} {s s' : State} (h : SameInputs i s s') : storeAddr i s = storeAddr i s' := by
  cases i <;> simp only [storeAddr, State.dstVal, h.dst]

/-- A read of the command gives the same element in both states, whatever its number (R69). -/
theorem SameInputs.readElem_eq {i : Instr} {s s' : State} (h : SameInputs i s s') {a : Nat}
    (ha : a ∈ commandReads i s) (j k : Nat) : s.readElem j a = s'.readElem k a := by
  obtain ⟨e, he, he'⟩ := h.reads a ha
  rw [State.readElem_of_written j he, State.readElem_of_written k he']

theorem SameInputs.rowLane_eq {i : Instr} {s s' : State} (h : SameInputs i s s') (p : Nat) :
    s.rowLane p = s'.rowLane p := by
  simp only [State.rowLane, State.row, h.row0, h.row1, h.row2, h.row3]

theorem mem_linearReads {b n k : Nat} (hk : k < n) : linearAddr b k ∈ (List.range n).map (linearAddr b) :=
  List.mem_map_of_mem (List.mem_range.mpr hk)

theorem SameInputs.dequantAt_eq {s s' : State} (h : SameInputs .dequant s s') {k : Nat} (hk : k < s.lenVal) :
    s.dequantAt k = s'.dequantAt k := by
  rw [State.dequantAt, State.dequantAt, h.readElem_eq (mem_linearReads hk) k k]
  simp only [State.scaleVal, State.shiftVal, State.addVal, State.dstVal, h.scale, h.shift, h.add, h.dst]

/-- Both commands store the same elements. -/
theorem SameInputs.storeVal_eq {i : Instr} {s s' : State} (h : SameInputs i s s') :
    ∀ k < storeCount i s, storeVal i s k = storeVal i s' k := by
  intro k hk
  cases i with
  | nop => rfl
  | quant =>
    show s.quantAt k = s'.quantAt k
    rw [State.quantAt, State.quantAt, h.readElem_eq (mem_linearReads hk) k k]
    simp only [State.scaleVal, State.shiftVal, State.addVal, State.dstVal, h.scale, h.shift, h.add, h.dst]
  | dequant => simp only [storeVal, h.dequantAt_eq hk]
  | abs =>
    show s.absAt k = s'.absAt k
    rw [State.absAt, State.absAt, h.readElem_eq (mem_linearReads hk) k k]
    simp only [State.srcVal, h.src]
  | addsign =>
    show s.addsignAt k = s'.addsignAt k
    rw [State.addsignAt, State.addsignAt, h.readElem_eq (List.mem_append_left _ (mem_linearReads hk)) _ (2 * k),
      h.readElem_eq (List.mem_append_right _ (mem_linearReads hk)) _ (2 * k + 1)]
    simp only [State.dstVal, State.srcVal, h.dst, h.src]
  | scanb ord slog2 =>
    have hmem := List.mem_map_of_mem (f := stridedAddr s.srcVal slog2)
      (List.mem_range.mpr (scanPos_lt (scanTable ord) k))
    refine (h.readElem_eq hmem _ (scanPos (scanTable ord) k)).trans ?_
    simp only [storeVal, State.srcVal, h.src]
  | scanr ord => simp only [storeVal, h.rowLane_eq]
  | iscanb ord slog2 =>
    refine (h.readElem_eq (mem_linearReads hk) _ k).trans ?_
    simp only [storeVal, State.srcVal, h.src]

/-- Both commands count the same. -/
theorem SameInputs.nzcnt_eq {i : Instr} {s s' : State} (h : SameInputs i s s') (hi : i = .quant ∨ i = .addsign) :
    (effectOf i s).nzcnt = (effectOf i s').nzcnt := by
  rw [effectOf_nzcnt_of_counting hi, effectOf_nzcnt_of_counting hi, ← h.storeCount_eq,
    nonzeroCount_congr h.storeVal_eq]

/-- From the same DQSAT, both commands leave the same. -/
theorem SameInputs.dqsat_eq {i : Instr} {s s' : State} (h : SameInputs i s s') (hd : s.dqsat = s'.dqsat) :
    (effectOf i s).dqsat = (effectOf i s').dqsat := by
  by_cases hi : i = .dequant
  · subst hi
    have hlen : s.lenVal = s'.lenVal := h.storeCount_eq
    show (dequantEffect s).dqsat = (dequantEffect s').dqsat
    rw [dequantEffect_dqsat, dequantEffect_dqsat, hd, ← hlen, anyClamped_congr fun k hk => h.dequantAt_eq hk]
  · rw [effectOf_dqsat_of_ne hi, effectOf_dqsat_of_ne hi, hd]

/-- Both commands have completed, with the same error or both without. -/
theorem SameInputs.exec_cases {i : Instr} {s s' t t' : State} (h : SameInputs i s s') (hexec : exec i s = .next t)
    (hexec' : exec i s' = .next t') :
    (∃ e, t = errorComplete e s ∧ t' = errorComplete e s') ∨
      (check i s = none ∧ check i s' = none ∧ t = complete (effectOf i s) ∧ t' = complete (effectOf i s')) := by
  have hcheck := h.check_eq
  cases hc : check i s with
  | none =>
    rw [hc] at hcheck
    rw [exec_of_pass hc] at hexec
    rw [exec_of_pass hcheck.symm] at hexec'
    exact Or.inr ⟨rfl, hcheck.symm, (Host.Outcome.next.inj hexec).symm, (Host.Outcome.next.inj hexec').symm⟩
  | some e =>
    rw [hc] at hcheck
    rw [exec_of_error hc] at hexec
    rw [exec_of_error hcheck.symm] at hexec'
    exact Or.inl ⟨e, (Host.Outcome.next.inj hexec).symm, (Host.Outcome.next.inj hexec').symm⟩

/-- Both commands leave the same elements where they write. -/
theorem SameInputs.elem_eq {i : Instr} {s s' : State} (h : SameInputs i s s') (hc : check i s = none)
    (hc' : check i s' = none) {a : Nat} (ha : a ∈ commandWrites i s) :
    ∃ e, (effectOf i s).dmem.elem a = some e ∧ (effectOf i s').dmem.elem a = some e := by
  obtain ⟨k, hk, rfl⟩ := (mem_commandWrites_iff i s a).mp ha
  obtain ⟨hstores, -⟩ := effectOf_storesExactly hc
  obtain ⟨hstores', -⟩ := effectOf_storesExactly hc'
  refine ⟨_, hstores k hk, ?_⟩
  rw [h.storeAddr_eq, h.storeVal_eq k hk]
  exact hstores' k (h.storeCount_eq ▸ hk)

end Sys2Proof.Machine
end

section
/-! PROOFS. What each command does, and what no command does (spec/40_quantizer.md to spec/44_control.md). -/

namespace Sys2Proof.Proofs

open Sys2Proof Sys2Proof.Machine

/-- Settles O19: the reads are a snapshot, the stores are those of the effect, and the level and its count are the formulas
of R100 and R104. -/
theorem quantWritesLevelsAndCount : Obligations.QuantWritesLevelsAndCount := by
  unfold Obligations.QuantWritesLevelsAndCount
  intro s hlegal
  have hpass : check .quant s = none := (checkScaled_eq_none_iff s).mpr hlegal
  have hval : storeVal .quant s = _ := funext fun i => quantLevel_eq _ _ _ (s.readElem i (linearAddr s.dstVal i))
  have hstores := effectOf_storesExactly hpass
  have hcount := effectOf_nzcnt_of_counting (Or.inl rfl) (i := .quant) s
  rw [hval] at hstores hcount
  refine ⟨_, _, snapshot_readElem s _ _ id, exec_of_pass hpass, hstores, ?_⟩
  simp only [levelOf] at hcount ⊢
  rw [nonzeroCount_ofInt_clamp16] at hcount
  exact hcount ▸ rfl

/-- Settles O26: what executing a command can change is none of these. -/
theorem commandsKeepHostRegisters : Obligations.CommandsKeepHostRegisters := by
  unfold Obligations.CommandsKeepHostRegisters
  intro i s t hexec
  rw [exec_frame hexec]
  exact ⟨rfl, rfl, rfl, rfl, rfl, rfl, rfl, rfl, rfl, rfl, rfl, rfl, rfl, rfl, rfl⟩

/-- Settles O27: an error leaves DMEM, and the places of the stores are the footprint. -/
theorem commandsWriteOnlyTheirFootprint : Obligations.CommandsWriteOnlyTheirFootprint := by
  unfold Obligations.CommandsWriteOnlyTheirFootprint
  intro i s t hexec
  refine ⟨fun b hout => ?_, fun hcode => ?_⟩
  · obtain ⟨e, -, rfl⟩ | ⟨-, rfl⟩ := exec_cases hexec
    · rfl
    · rw [complete_dmem, effectOf_dmem]
      exact Memory.byte_storeElems_ne _ _ _ b _ fun k hk => hout _ ((mem_commandWrites_iff i s _).mpr ⟨k, hk, rfl⟩)
  · obtain ⟨e, -, rfl⟩ := exec_of_errCode_ne_zero hexec hcode
    rfl

/-- Settles O28: an error leaves NZCNT, a command that does not count leaves it, and a count is of LEN elements. -/
theorem onlyCountingCommandsWriteNzcnt : Obligations.OnlyCountingCommandsWriteNzcnt := by
  unfold Obligations.OnlyCountingCommandsWriteNzcnt
  intro i s t hexec
  refine ⟨?_, fun hi hcode => ?_⟩
  · obtain ⟨e, -, rfl⟩ | ⟨-, rfl⟩ := exec_cases hexec
    · exact fun _ => rfl
    · rintro (hi | hcode)
      · exact effectOf_nzcnt_of_not_counting hi s
      · exact absurd (complete_errCode _) hcode
  · obtain ⟨-, rfl⟩ := exec_of_errCode_zero hexec hcode
    exact effectOf_nzcnt_le hi s

/-- Settles O29: the error completion sets ERRS and a code that is not 0; the completion has code 0, and its effect leaves
ERRS, and DQSAT but for DEQUANT, which only sets it. -/
theorem stickyFlagsSurviveCommands : Obligations.StickyFlagsSurviveCommands := by
  unfold Obligations.StickyFlagsSurviveCommands
  intro i s t hexec
  obtain ⟨e, hcheck, rfl⟩ | ⟨hcheck, rfl⟩ := exec_cases hexec
  · have hcode : (errorComplete e s).errCode ≠ 0#4 := code_ne_zero e
    have hfailed : check i s ≠ none := by simp [hcheck]
    exact ⟨fun _ => rfl, id, iff_of_true hcode hfailed, iff_of_true rfl (Or.inr hcode), fun _ => rfl⟩
  · have hcode : (complete (effectOf i s)).errCode = 0#4 := rfl
    rw [complete_errs, effectOf_errs]
    exact ⟨id, effectOf_dqsat_of_set i, iff_of_false (not_not_intro hcode) (not_not_intro hcheck),
      ⟨Or.inl, fun h => h.resolve_right (not_not_intro hcode)⟩, fun hi => effectOf_dqsat_of_ne hi s⟩

/-- Settles O30: the checks look at the operands, the stores and the counts at the operands, the rows and the elements
read. -/
theorem commandsDependOnlyOnTheirInputs : Obligations.CommandsDependOnlyOnTheirInputs := by
  unfold Obligations.CommandsDependOnlyOnTheirInputs
  intro i s s' t t' hscale hshift hadd hdst hsrc hlen hrow0 hrow1 hrow2 hrow3 hreads hexec hexec'
  have hsame : SameInputs i s s' := ⟨hscale, hshift, hadd, hdst, hsrc, hlen, hrow0, hrow1, hrow2, hrow3, hreads⟩
  obtain ⟨e, rfl, rfl⟩ | ⟨hc, hc', rfl, rfl⟩ := hsame.exec_cases hexec hexec'
  · exact ⟨rfl, fun h => absurd h (code_ne_zero e), fun h => absurd h (code_ne_zero e), id⟩
  · exact ⟨rfl, fun _ a ha => hsame.elem_eq hc hc' ha, fun _ hi => hsame.nzcnt_eq hi, fun hd => hsame.dqsat_eq hd⟩

end Sys2Proof.Proofs
end

section
/-! PROOFS. What each command does, continued (spec/41_dequantizer.md to spec/43_signmag.md). -/

namespace Sys2Proof.Machine

/-- A command that writes neither NZCNT nor DQSAT and whose checks pass stores its elements and completes, and changes
nothing else. -/
theorem exec_of_pass_of_plain {i : Instr} {s : State} (hpass : check i s = none)
    (hcount : i ≠ .quant ∧ i ≠ .addsign) (hdq : i ≠ .dequant) :
    ∃ t, exec i s = .next t ∧ StoresExactly s.dmem t.dmem (storeCount i s) (storeAddr i s) (storeVal i s) ∧
      t.memReads = (effectOf i s).memReads ∧
      t = { s with
        dmem := t.dmem
        memReads := t.memReads
        busy := false
        done := true
        errCode := 0#4 } := by
  have hframe := effectOf_frame i s
  rw [effectOf_nzcnt_of_not_counting hcount, effectOf_dqsat_of_ne hdq] at hframe
  exact ⟨_, exec_of_pass hpass, effectOf_storesExactly hpass, rfl, congrArg complete hframe⟩

/-- DEQUANT sets DQSAT where an element was clamped (R121). -/
theorem effectOf_dequant_dqsat_iff (s : State) :
    (effectOf .dequant s).dqsat = true ↔ s.dqsat = true ∨ ∃ i < s.lenVal, clamp16 (s.dequantAt i) ≠ s.dequantAt i := by
  show (dequantEffect s).dqsat = true ↔ _
  rw [dequantEffect_dqsat, Bool.or_eq_true, anyClamped_eq_true_iff]

end Sys2Proof.Machine
end

section
/-! PROOFS. The commands but QUANT and NOP. -/

namespace Sys2Proof.Proofs

open Sys2Proof Sys2Proof.Machine

/-- Settles O20: the reads are a snapshot, the stores are those of the effect, and DQSAT is set where the clamp changed a
value. -/
theorem dequantWritesCoefficients : Obligations.DequantWritesCoefficients := by
  unfold Obligations.DequantWritesCoefficients
  intro s hlegal
  have hpass : check .dequant s = none := (checkScaled_eq_none_iff s).mpr hlegal
  have hcoef : s.dequantAt = fun i => coefOf s.scaleVal s.shiftVal s.addVal (s.readElem i (linearAddr s.dstVal i)).toInt :=
    funext fun i => dequantExact_eq_coefOf _ _ _ _
  have hval : storeVal .dequant s = fun i => BitVec.ofInt 16 (clamp16 (s.dequantAt i)) :=
    funext fun i => congrArg (BitVec.ofInt 16) (sat16_eq_clamp16 _)
  have hstores := effectOf_storesExactly hpass
  have hdqsat := effectOf_dequant_dqsat_iff s
  rw [hval] at hstores
  rw [hcoef] at hstores hdqsat
  exact ⟨_, _, snapshot_readElem s _ _ id, exec_of_pass hpass, hstores, hdqsat, rfl⟩

/-- Settles O21: the reads are a snapshot and the stores are the clamped magnitudes. -/
theorem absWritesMagnitudes : Obligations.AbsWritesMagnitudes := by
  unfold Obligations.AbsWritesMagnitudes
  intro s hlegal
  have hpass : check .abs s = none := (checkHelper_eq_none_iff s).mpr hlegal
  have hval : storeVal .abs s = _ :=
    funext fun i => congrArg (BitVec.ofInt 16) (absSat16_eq_min (s.readElem i (linearAddr s.srcVal i)))
  obtain ⟨t, hexec, hstores, -, hframe⟩ := exec_of_pass_of_plain hpass ⟨nofun, nofun⟩ nofun
  rw [hval] at hstores
  exact ⟨_, t, snapshot_readElem s _ _ id, hexec, hstores, hframe⟩

/-- Settles O22: the signs and the magnitudes are snapshots, and NZCNT counts the stores that are not 0. -/
theorem addsignWritesSignedMagnitudes : Obligations.AddsignWritesSignedMagnitudes := by
  unfold Obligations.AddsignWritesSignedMagnitudes
  intro s hlegal
  have hpass : check .addsign s = none := (checkHelper_eq_none_iff s).mpr hlegal
  have hval : storeVal .addsign s = _ := funext fun i =>
    signedMagnitude_eq (s.readElem (2 * i) (linearAddr s.dstVal i)) (s.readElem (2 * i + 1) (linearAddr s.srcVal i))
  have hstores := effectOf_storesExactly hpass
  have hcount := effectOf_nzcnt_of_counting (Or.inr rfl) (i := .addsign) s
  rw [hval] at hstores hcount
  rw [nonzeroCount_ofInt_clamp16] at hcount
  exact ⟨_, _, _, snapshot_readElem s _ _ (fun i => 2 * i), snapshot_readElem s _ _ (fun i => 2 * i + 1),
    exec_of_pass hpass, hstores, hcount ▸ rfl⟩

/-- Settles O23: the reads of the CG are a snapshot, stored in scan order. -/
theorem scanbWritesScanOrder : Obligations.ScanbWritesScanOrder := by
  unfold Obligations.ScanbWritesScanOrder
  intro ord slog2 s hlegal
  have hpass : check (.scanb ord slog2) s = none := (checkScanb_eq_none_iff slog2 s).mpr hlegal
  obtain ⟨t, hexec, hstores, -, hframe⟩ := exec_of_pass_of_plain hpass ⟨nofun, nofun⟩ nofun
  exact ⟨_, t, snapshot_readElem s _ _ id, hexec, hstores, hframe⟩

/-- Settles O24: the stores are the lanes in scan order, and no DMEM is read. -/
theorem scanrWritesScanOrder : Obligations.ScanrWritesScanOrder := by
  unfold Obligations.ScanrWritesScanOrder
  intro ord s hlegal
  have hpass : check (.scanr ord) s = none := (checkScanr_eq_none_iff s).mpr hlegal
  have hreads : (effectOf (.scanr ord) s).memReads = s.memReads := scanrEffect_memReads (scanTable ord) s
  obtain ⟨t, hexec, hstores, hcounter, hframe⟩ := exec_of_pass_of_plain hpass ⟨nofun, nofun⟩ nofun
  rw [hcounter, hreads] at hframe
  exact ⟨t, hexec, hstores, hframe⟩

/-- Settles O25: the reads at SRC are a snapshot, stored at the raster positions. -/
theorem iscanbWritesRasterOrder : Obligations.IscanbWritesRasterOrder := by
  unfold Obligations.IscanbWritesRasterOrder
  intro ord slog2 s hlegal
  have hpass : check (.iscanb ord slog2) s = none := (checkIscanb_eq_none_iff slog2 s).mpr hlegal
  obtain ⟨t, hexec, hstores, -, hframe⟩ := exec_of_pass_of_plain hpass ⟨nofun, nofun⟩ nofun
  exact ⟨_, t, snapshot_readElem s _ _ id, hexec, hstores, hframe⟩

end Sys2Proof.Proofs
end

section
/-! PROOFS. The arithmetic at the edges: the intermediates that 32 and 33 bits hold, symmetry, the dead zone, and what the
separator restores (spec/40_quantizer.md R101 to R104, spec/41_dequantizer.md R124, spec/43_signmag.md R173, R174). -/

namespace Sys2Proof.Machine

/-! ### Bounds of an element -/

theorem elem_toInt_mem_range (e : Elem) : -32768 ≤ e.toInt ∧ e.toInt ≤ 32767 := sext16_mem_range e

theorem clamp16_of_mem_range {v : Int} (hl : -32768 ≤ v) (hu : v ≤ 32767) : clamp16 v = v := by
  unfold clamp16
  omega

/-- Only −32768 has a magnitude that is no element (R171). -/
theorem abs_toInt_le_of_ne {e : Elem} (h : e ≠ 0x8000#16) : |e.toInt| ≤ 32767 := by
  obtain ⟨hl, hu⟩ := elem_toInt_mem_range e
  have hmin : e.toInt ≠ -32768 := fun heq => h (BitVec.toInt_inj.mp heq)
  rw [abs_le]
  omega

/-! ### QUANT -/

/-- 32 unsigned bits hold QUANT's sum (R101): at most 32768 · 65535 + 2^31 − 1. -/
theorem toNat_quantSum (c : Elem) {sc ad : Word} (hsc : sc.toNat ≤ 65535) (had : ad.toNat < 2 ^ 31) :
    (BitVec.ofInt 32 |c.toInt| * sc + ad).toNat = c.toInt.natAbs * sc.toNat + ad.toNat := by
  obtain ⟨hl, hu⟩ := elem_toInt_mem_range c
  have hmag : c.toInt.natAbs ≤ 32768 := by omega
  have hprod : c.toInt.natAbs * sc.toNat ≤ 32768 * 65535 := Nat.mul_le_mul hmag hsc
  have hfit : (BitVec.ofInt 32 |c.toInt|).toNat = c.toInt.natAbs := by
    rw [BitVec.toNat_ofInt, Int.abs_eq_natAbs]
    omega
  rw [BitVec.toNat_add, BitVec.toNat_mul, hfit]
  omega

theorem word_toInt_of_lt {w : Word} (h : w.toNat < 2 ^ 31) : w.toInt = w.toNat :=
  BitVec.toInt_eq_toNat_of_lt (by omega)

/-- The rounded magnitude is not negative. -/
theorem magnitude_nonneg (sc sh : Nat) {ad : Int} (had : 0 ≤ ad) (c : Int) : 0 ≤ (|c| * sc + ad) / 2 ^ sh := by
  positivity

/-- The magnitude is 0 exactly in the dead zone. -/
theorem magnitude_eq_zero_iff (sc sh : Nat) {ad : Int} (had : 0 ≤ ad) (c : Int) :
    (|c| * sc + ad) / 2 ^ sh = 0 ↔ |c| * sc + ad < 2 ^ sh := by
  have hsum : 0 ≤ |c| * sc + ad := by positivity
  have hpow : (0 : Int) < 2 ^ sh := by positivity
  constructor
  · intro h
    have hlt := Int.lt_ediv_add_one_mul_self (|c| * sc + ad) hpow
    rwa [h, zero_add, one_mul] at hlt
  · exact Int.ediv_eq_zero_of_lt hsum

theorem quantLevel_eq_zero_iff (sc sh : Nat) {ad : Int} (had : 0 ≤ ad) (c : Elem) :
    quantLevel sc sh ad c = 0#16 ↔ c = 0#16 ∨ |c.toInt| * sc + ad < 2 ^ sh := by
  rw [elem_eq_zero_iff, toInt_quantLevel, levelOf, clamp16_eq_zero_iff, mul_eq_zero, Int.sign_eq_zero_iff_zero,
    magnitude_eq_zero_iff sc sh had, ← elem_eq_zero_iff]

theorem quantLevel_zero (sc sh : Nat) (ad : Int) : quantLevel sc sh ad 0#16 = 0#16 := by
  rw [elem_eq_zero_iff, toInt_quantLevel, levelOf, BitVec.toInt_zero, Int.sign_zero, zero_mul]
  rfl

/-- The level of −c for an element with a negation. -/
theorem toInt_quantLevel_neg (sc sh : Nat) (ad : Int) {c : Elem} (h : c ≠ 0x8000#16) :
    (quantLevel sc sh ad (-c)).toInt = clamp16 (-(c.toInt.sign * ((|c.toInt| * sc + ad) / 2 ^ sh))) := by
  have hneg : (-c).toInt = -c.toInt := BitVec.toInt_neg_of_ne_intMin h
  rw [toInt_quantLevel, hneg, levelOf, abs_neg, Int.sign_neg, neg_mul]

/-- A sign times a number below 32768 is in the signed 16-bit range, on either side of 0. -/
theorem sign_mul_mem_range (v : Int) {m : Int} (hm : 0 ≤ m) (hlt : m < 32768) :
    -32767 ≤ v.sign * m ∧ v.sign * m ≤ 32767 := by
  rcases Int.sign_trichotomy v with hs | hs | hs
  · rw [hs, one_mul]; omega
  · rw [hs, zero_mul]; omega
  · rw [hs, neg_one_mul]; omega

/-! ### DEQUANT -/

/-- The product of an element and a legal SCALE is within 2^31 of 0. -/
theorem product_mem_range (l : Elem) {sc : Word} (hsc : sc.toNat ≤ 65535) :
    -2147450880 ≤ l.toInt * sc.toNat ∧ l.toInt * sc.toNat ≤ 2147385345 := by
  obtain ⟨hl, hu⟩ := elem_toInt_mem_range l
  constructor
  · nlinarith
  · nlinarith

/-- 33 bits of two's complement hold DEQUANT's sum (R124). -/
theorem toInt_dequantSum (l : Elem) {sc ad : Word} (hsc : sc.toNat ≤ 65535) (had : ad.toNat < 2 ^ 31) :
    (l.signExtend 33 * sc.zeroExtend 33 + ad.zeroExtend 33).toInt = l.toInt * sc.toNat + ad.toNat := by
  have hprod := product_mem_range l hsc
  have hext : ∀ w : Word, w.toNat < 2 ^ 31 → (w.zeroExtend 33).toInt = w.toNat := fun w hw => by
    rw [BitVec.toInt_setWidth]
    exact Int.bmod_eq_of_le (by omega) (by omega)
  rw [BitVec.toInt_add, BitVec.toInt_mul, BitVec.toInt_signExtend_of_le (by decide), hext sc (by omega), hext ad had,
    Int.bmod_eq_of_le (n := l.toInt * sc.toNat) (by omega) (by omega)]
  exact Int.bmod_eq_of_le (by omega) (by omega)

/-! ### The separator -/

/-- The sign of an element times its own clamped magnitude is the element, but for −32768 (R174). -/
theorem signedMagnitude_abs (x : Elem) :
    signedMagnitude x (BitVec.ofInt 16 (min 32767 |x.toInt|)) = if x = 0x8000#16 then 0x8001#16 else x := by
  split
  next h =>
    subst h
    decide
  next h =>
    have hmag := abs_toInt_le_of_ne h
    have hnonneg := abs_nonneg x.toInt
    obtain ⟨hl, hu⟩ := elem_toInt_mem_range x
    rw [min_eq_right hmag, signedMagnitude_eq, toInt_ofInt_of_mem_range (by omega) hmag, Int.sign_mul_abs,
      clamp16_of_mem_range hl hu, BitVec.ofInt_toInt]

/-- The sign of an element times the element is its clamped magnitude (R173). -/
theorem signedMagnitude_self (x : Elem) : signedMagnitude x x = BitVec.ofInt 16 (min 32767 |x.toInt|) := by
  have hnonneg := abs_nonneg x.toInt
  have hclamp : clamp16 |x.toInt| = min 32767 |x.toInt| := by
    unfold clamp16
    omega
  rw [signedMagnitude_eq, Int.sign_mul_self_eq_abs, hclamp]

/-! ### The stored elements where the elements read are written -/

theorem quantAt_of_written {s : State} {k : Nat} {c : Elem} (h : s.dmem.elem (s.dst.toNat + k) = some c) :
    s.quantAt k = quantLevel s.scaleVal s.shiftVal s.addVal c := by
  rw [State.quantAt, linearAddr, State.readElem_of_written k h]

theorem dequantAt_of_written {s : State} {k : Nat} {l : Elem} (h : s.dmem.elem (s.dst.toNat + k) = some l) :
    s.dequantAt k = coefOf s.scaleVal s.shiftVal s.addVal l.toInt := by
  rw [State.dequantAt, linearAddr, State.readElem_of_written k h, dequantExact_eq_coefOf]

theorem absAt_of_written {s : State} {k : Nat} {v : Elem} (h : s.dmem.elem (s.src.toNat + k) = some v) :
    s.absAt k = BitVec.ofInt 16 (min 32767 |v.toInt|) := by
  rw [State.absAt, linearAddr, State.readElem_of_written k h, absSat16_eq_min]
  rfl

theorem addsignAt_of_written {s : State} {k : Nat} {sg a : Elem} (hsg : s.dmem.elem (s.dst.toNat + k) = some sg)
    (ha : s.dmem.elem (s.src.toNat + k) = some a) : s.addsignAt k = signedMagnitude sg a := by
  rw [State.addsignAt, linearAddr, linearAddr, State.readElem_of_written _ hsg, State.readElem_of_written _ ha]

/-- Where a command whose checks pass has stored, its elements read back. -/
theorem elem_complete {i : Instr} {s : State} (hpass : check i s = none) {k : Nat} (hk : k < storeCount i s) :
    (complete (effectOf i s)).dmem.elem (storeAddr i s k) = some (storeVal i s k) := by
  obtain ⟨hstores, -⟩ := effectOf_storesExactly hpass
  exact hstores k hk

/-- A count of at most DMEM's elements is NZCNT's value. -/
theorem toNat_nzcnt_of_pass {i : Instr} {s : State} (hi : i = .quant ∨ i = .addsign) (hpass : check i s = none) :
    (effectOf i s).nzcnt.toNat = nonzeroCount s.lenVal (storeVal i s) := by
  have hle := nonzeroCount_le s.lenVal (storeVal i s)
  have hlen := lenVal_le_of_pass hi hpass
  rw [effectOf_nzcnt_of_counting hi, storeCount_of_counting hi, BitVec.toNat_ofNat]
  exact Nat.mod_eq_of_lt (by omega)

/-! ### ABS of a copy, then ADDSIGN (R174) -/

/-- ABS stores the clamped magnitudes of the elements at SRC. -/
theorem elem_abs_stored {s : State} {x : Nat → Elem} (hlegal : HelperLegal s)
    (hx : ∀ k < s.len.toNat, s.dmem.elem (s.src.toNat + k) = some (x k)) :
    ∀ k < s.len.toNat, (complete (effectOf .abs s)).dmem.elem (s.dst.toNat + k) =
      some (BitVec.ofInt 16 (min 32767 |(x k).toInt|)) := fun k hk =>
  (elem_complete (i := .abs) ((checkHelper_eq_none_iff s).mpr hlegal) hk).trans
    (congrArg some (absAt_of_written (hx k hk)))

/-- ABS leaves an element outside its footprint. -/
theorem elem_abs_apart (s : State) {a : Nat} (h : ∀ j < s.len.toNat, a ≠ s.dst.toNat + j) :
    (complete (effectOf .abs s)).dmem.elem a = s.dmem.elem a := by
  rw [complete_dmem, effectOf_dmem]
  exact Memory.elem_storeElems_ne _ _ _ _ _ h

/-- ADDSIGN of the clamped magnitudes of the elements at DST gives the elements back, but for −32768, and counts those that
are not 0. -/
theorem exec_addsign_of_magnitudes {s : State} {x : Nat → Elem} (hlegal : HelperLegal s)
    (hsign : ∀ k < s.len.toNat, s.dmem.elem (s.dst.toNat + k) = some (x k))
    (hmag : ∀ k < s.len.toNat, s.dmem.elem (s.src.toNat + k) =
      some (BitVec.ofInt 16 (min 32767 |(x k).toInt|))) :
    ∃ u, exec .addsign s = .next u ∧
      (∀ k < s.len.toNat, u.dmem.elem (s.dst.toNat + k) = some (if x k = 0x8000#16 then 0x8001#16 else x k)) ∧
      u.nzcnt.toNat = ((Finset.range s.len.toNat).filter fun k => x k ≠ 0#16).card := by
  have hpass : check .addsign s = none := (checkHelper_eq_none_iff s).mpr hlegal
  have hval : ∀ k < s.len.toNat, storeVal .addsign s k = if x k = 0x8000#16 then 0x8001#16 else x k := fun k hk =>
    (addsignAt_of_written (hsign k hk) (hmag k hk)).trans (signedMagnitude_abs (x k))
  refine ⟨_, exec_of_pass hpass, fun k hk => ?_, ?_⟩
  · exact (elem_complete hpass hk).trans (congrArg some (hval k hk))
  · rw [complete_nzcnt, toNat_nzcnt_of_pass (Or.inr rfl) hpass, nonzeroCount_congr hval, nonzeroCount_eq_card]
    refine congrArg Finset.card (Finset.filter_congr fun k _ => not_congr ?_)
    split
    next h => simp [h]
    next h => rfl

end Sys2Proof.Machine
end

section
/-! PROOFS. The arithmetic and the separator. -/

namespace Sys2Proof.Proofs

open Sys2Proof Sys2Proof.Machine

/-- Settles O31: 32 bits hold the sum, so nothing wraps; the shift is the quotient. -/
theorem quantFitsUnsigned32 : Obligations.QuantFitsUnsigned32 := by
  unfold Obligations.QuantFitsUnsigned32
  intro c sc ad sh hsc had _
  rw [quantMagnitude_eq, BitVec.toNat_ushiftRight, toNat_quantSum c hsc had, Nat.shiftRight_eq_div_pow,
    word_toInt_of_lt had]
  push_cast
  rfl

/-- Settles O32: 33 bits hold the sum, so nothing wraps; the arithmetic shift is the floor of the quotient. -/
theorem dequantFitsSigned33 : Obligations.DequantFitsSigned33 := by
  unfold Obligations.DequantFitsSigned33
  intro l sc ad sh hsc had _
  rw [dequantExact_eq_coefOf, BitVec.toInt_sshiftRight, toInt_dequantSum l hsc had, Int.shiftRight_eq_div_pow,
    word_toInt_of_lt had]
  push_cast
  rfl

/-- Settles O33: −c has the magnitude of c and the other sign; the clamp commutes with the negation in range, and outside
it takes each sign to its own end. -/
theorem quantIsOddUnlessSaturated : Obligations.QuantIsOddUnlessSaturated := by
  unfold Obligations.QuantIsOddUnlessSaturated
  intro c sc sh ad _ _ had _ hc
  have hneg := toInt_quantLevel_neg sc sh ad hc
  have hpos := toInt_quantLevel sc sh ad c
  rw [levelOf] at hpos
  refine ⟨fun hlt => ?_, fun hge hc0 => ?_⟩
  · have hrange := sign_mul_mem_range c.toInt (magnitude_nonneg sc sh had c.toInt) hlt
    rw [hneg, hpos, clamp16_of_mem_range (by omega) (by omega), clamp16_of_mem_range (by omega) (by omega)]
  · rw [Int.sign_eq_one_of_pos hc0, one_mul, clamp16] at hneg hpos
    omega

/-- Settles O34: the level is the clamp of sign times magnitude, which is 0 with the sign or with the magnitude. -/
theorem quantDeadZone : Obligations.QuantDeadZone := by
  unfold Obligations.QuantDeadZone
  exact fun c sc sh ad _ _ had _ => quantLevel_eq_zero_iff sc sh had c

/-- Settles O35: every level stored is the level of 0. -/
theorem quantKeepsZeroBlock : Obligations.QuantKeepsZeroBlock := by
  unfold Obligations.QuantKeepsZeroBlock
  intro s hlegal hzero
  have hpass : check .quant s = none := (checkScaled_eq_none_iff s).mpr hlegal
  have hval : ∀ k < s.lenVal, storeVal .quant s k = 0#16 := fun k hk =>
    (quantAt_of_written (hzero k hk)).trans (quantLevel_zero _ _ _)
  refine ⟨_, exec_of_pass hpass, ?_, fun k hk => ?_⟩
  · have hnone : nonzeroCount s.lenVal (fun _ => 0#16) = 0 := by simp [nonzeroCount]
    apply BitVec.eq_of_toNat_eq
    rw [complete_nzcnt, toNat_nzcnt_of_pass (Or.inl rfl) hpass, nonzeroCount_congr hval, hnone]
    rfl
  · exact (elem_complete hpass hk).trans (congrArg some (hval k hk))

/-- Settles O36: with DQSAT clear no value was clamped, so each is in range and is the value of the element stored. -/
theorem dequantExactWhenNotSaturated : Obligations.DequantExactWhenNotSaturated := by
  unfold Obligations.DequantExactWhenNotSaturated
  intro s hlegal
  have hpass : check .dequant s = none := (checkScaled_eq_none_iff s).mpr hlegal
  refine ⟨_, exec_of_pass hpass, fun hclear k hk l hl => ⟨_, elem_complete hpass hk, ?_⟩⟩
  have hexact : clamp16 (s.dequantAt k) = s.dequantAt k := by
    by_contra hclamped
    have hset := (effectOf_dequant_dqsat_iff s).mpr (Or.inr ⟨k, hk, hclamped⟩)
    cases hset.symm.trans hclear
  show (trunc16 (sat16 (s.dequantAt k))).toInt = _
  rw [sat16_eq_clamp16]
  exact (toInt_ofInt_clamp16 _).trans (hexact.trans (dequantAt_of_written hl))

/-- Settles O37: ABS stores the clamped magnitudes at SRC and leaves X at `d`; ADDSIGN gives each magnitude its sign
back. -/
theorem absThenAddsignRestores : Obligations.AbsThenAddsignRestores := by
  unfold Obligations.AbsThenAddsignRestores
  intro s d x hlen hdst hsrc hd hdisjoint hx
  have hlegal : HelperLegal s := ⟨hlen, by rw [hdst]; exact hsrc, hsrc⟩
  have hpass : check .abs s = none := (checkHelper_eq_none_iff s).mpr hlegal
  have hmag := elem_abs_stored hlegal fun k hk => (hx k hk).right
  have hsign : ∀ k < s.len.toNat, (complete (effectOf .abs s)).dmem.elem (d.toNat + k) = some (x k) := fun k hk => by
    rw [elem_abs_apart s fun j hj => by rw [hdst]; omega]
    exact (hx k hk).left
  rw [hdst] at hmag
  obtain ⟨u, hexec, helems, hcount⟩ :=
    exec_addsign_of_magnitudes (s := { complete (effectOf .abs s) with dst := d }) ⟨hlen, hd, hsrc⟩ hsign hmag
  exact ⟨_, u, exec_of_pass hpass, hexec, helems, hcount⟩

/-- Settles O38: both commands store the clamped magnitude of each element, at the same places. -/
theorem addsignInPlaceIsAbs : Obligations.AddsignInPlaceIsAbs := by
  unfold Obligations.AddsignInPlaceIsAbs
  intro s x hlegal hsrc hx
  have hadd : check .addsign s = none := (checkHelper_eq_none_iff s).mpr hlegal
  have habs : check .abs s = none := (checkHelper_eq_none_iff s).mpr hlegal
  refine ⟨_, _, exec_of_pass hadd, exec_of_pass habs, fun k hk => ?_⟩
  have hread : s.dmem.elem (s.src.toNat + k) = some (x k) := by rw [hsrc]; exact hx k hk
  have haddVal : storeVal .addsign s k = BitVec.ofInt 16 (min 32767 |(x k).toInt|) :=
    (addsignAt_of_written (hx k hk) hread).trans (signedMagnitude_self (x k))
  have habsVal : storeVal .abs s k = BitVec.ofInt 16 (min 32767 |(x k).toInt|) := absAt_of_written hread
  have hsum := (elem_complete hadd hk).trans (congrArg some haddVal)
  have hmag := (elem_complete habs hk).trans (congrArg some habsVal)
  have hnonneg := abs_nonneg (x k).toInt
  exact ⟨hsum.trans hmag.symm, _, hsum, toInt_ofInt_of_mem_range (by omega) (by omega)⟩

end Sys2Proof.Proofs
end

section
/-! PROOFS. The scans over a written coefficient group (spec/42_scanner.md R140 to R151). -/

namespace Sys2Proof.Machine

/-- SCANB of a written CG leaves its elements in scan order at DST. -/
theorem exec_scanb_of_written {ord : ScanOrder} {slog2 : Nat} {s : State} {x : Nat → Elem} (hlegal : ScanbLegal slog2 s)
    (hx : ∀ p < 16, s.dmem.elem (stridedAddr s.src.toNat slog2 p) = some (x p)) :
    ∃ t, exec (.scanb ord slog2) s = .next t ∧
      ∀ k < 16, t.dmem.elem (s.dst.toNat + k) = some (x (scanPos (scanTable ord) k)) := by
  have hpass : check (.scanb ord slog2) s = none := (checkScanb_eq_none_iff slog2 s).mpr hlegal
  refine ⟨_, exec_of_pass hpass, fun k hk => (elem_complete hpass hk).trans (congrArg some ?_)⟩
  exact State.readElem_of_written _ (hx _ (scanPos_lt (scanTable ord) k))

/-- ISCANB of sixteen elements that stand in scan order leaves each at its raster position. -/
theorem exec_iscanb_of_written {ord : ScanOrder} {slog2 : Nat} {s : State} {x : Nat → Elem} (hlegal : IscanbLegal slog2 s)
    (hx : ∀ k < 16, s.dmem.elem (s.src.toNat + k) = some (x (scanPos (scanTable ord) k))) :
    ∃ u, exec (.iscanb ord slog2) s = .next u ∧
      ∀ p < 16, u.dmem.elem (stridedAddr s.dst.toNat slog2 p) = some (x p) := by
  have hpass : check (.iscanb ord slog2) s = none := (checkIscanb_eq_none_iff slog2 s).mpr hlegal
  refine ⟨_, exec_of_pass hpass, fun p hp => ?_⟩
  obtain ⟨k, hk, rfl⟩ := exists_scanPos_eq ord hp
  exact (elem_complete hpass hk).trans (congrArg some (State.readElem_of_written k (hx k hk)))

/-- A scan order is a permutation of the sixteen positions (R140). -/
theorem map_scanPos_perm (ord : ScanOrder) : ((List.range 16).map (scanPos (scanTable ord))).Perm (List.range 16) := by
  have hperm := Equiv.Perm.map_finRange_perm (Equiv.ofBijective _ (scanTable_bijective ord))
  have hvals := hperm.map Fin.val
  simp only [List.map_map, List.map_coe_finRange_eq_range] at hvals
  rw [← List.map_coe_finRange_eq_range, List.map_map]
  refine (List.Perm.of_eq (List.map_congr_left fun k _ => ?_)).trans hvals
  exact scanPos_val (scanTable ord) k

/-- The two orders differ at some place (R140). -/
theorem exists_scanPos_ne : ∃ k < 16, scanPos (scanTable .xy) k ≠ scanPos (scanTable .yx) k := by
  obtain ⟨k, hk⟩ := Function.ne_iff.mp scanTable_xy_ne_yx
  refine ⟨k.val, k.isLt, ?_⟩
  rw [scanPos_val, scanPos_val]
  exact fun heq => hk (Fin.val_injective heq)

end Sys2Proof.Machine
end

section
/-! PROOFS. Scanning. -/

namespace Sys2Proof.Proofs

open Sys2Proof Sys2Proof.Machine

/-- Settles O41: SCANB leaves the elements in scan order, and a scan order reaches every raster position, where ISCANB puts
each back. -/
theorem scanThenInverseScanRestores : Obligations.ScanThenInverseScanRestores := by
  unfold Obligations.ScanThenInverseScanRestores
  intro ord slog2 s x y hlegal hy hx
  obtain ⟨hstride, -, hbuffer⟩ := id hlegal
  obtain ⟨t, hscan, hbuf⟩ := exec_scanb_of_written (ord := ord) hlegal hx
  obtain ⟨u, hiscan, helems⟩ :=
    exec_iscanb_of_written (ord := ord) (slog2 := slog2) (s := { t with src := s.dst, dst := y })
      ⟨hstride, hbuffer, hy⟩ hbuf
  exact ⟨t, u, hscan, hiscan, helems⟩

/-- Settles O42: both commands store to the same places, and SCANB reads there the lanes that SCANR stores. -/
theorem scanrMatchesScanb : Obligations.ScanrMatchesScanb := by
  unfold Obligations.ScanrMatchesScanb
  intro ord slog2 s hlegal hx
  obtain ⟨-, -, hbuffer⟩ := id hlegal
  have hr : check (.scanr ord) s = none := (checkScanr_eq_none_iff s).mpr hbuffer
  have hb : check (.scanb ord slog2) s = none := (checkScanb_eq_none_iff slog2 s).mpr hlegal
  refine ⟨_, _, exec_of_pass hr, exec_of_pass hb, ?_⟩
  rw [complete_dmem, complete_dmem, effectOf_dmem, effectOf_dmem]
  refine Memory.storeElems_congr _ _ 16 fun k _ => ?_
  exact (State.readElem_of_written _ (hx _ (scanPos_lt (scanTable ord) k))).symm

/-- Settles O43: the elements at DST are those of the CG, listed along a permutation of the positions. -/
theorem scanKeepsEveryValue : Obligations.ScanKeepsEveryValue := by
  unfold Obligations.ScanKeepsEveryValue
  intro ord slog2 s x hlegal hx
  obtain ⟨t, hscan, helems⟩ := exec_scanb_of_written (ord := ord) hlegal hx
  refine ⟨t, hscan, ?_⟩
  rw [List.map_congr_left fun k hk => helems k (List.mem_range.mp hk)]
  have hperm := (map_scanPos_perm ord).map fun p => some (x p)
  rwa [List.map_map] at hperm

/-- Settles O44: at a place where the orders differ they take different positions, whose elements are distinct. -/
theorem distinctElementsScanDifferently : Obligations.DistinctElementsScanDifferently := by
  unfold Obligations.DistinctElementsScanDifferently
  intro slog2 s x hlegal hx hdistinct
  obtain ⟨t, hxy, ht⟩ := exec_scanb_of_written (ord := .xy) hlegal hx
  obtain ⟨u, hyx, hu⟩ := exec_scanb_of_written (ord := .yx) hlegal hx
  obtain ⟨k, hk, hne⟩ := exists_scanPos_ne
  refine ⟨t, u, hxy, hyx, k, hk, ?_⟩
  rw [ht k hk, hu k hk]
  exact fun heq => hne (hdistinct _ (scanPos_lt _ k) _ (scanPos_lt _ k) (Option.some.inj heq))

/-- Settles O39: the tables in use are legal; on sixteen positions what reaches all is a bijection. -/
theorem scanTablesAreLegal : Obligations.ScanTablesAreLegal := by
  unfold Obligations.ScanTablesAreLegal
  exact ⟨scanTable_bijective, scanTable_xy_ne_yx⟩

end Sys2Proof.Proofs
end

section
/-! PROOFS. Runs that read no unwritten element: the number at which the reads of a state start does not bear on its steps
(spec/70_reset_and_hazards.md R244, spec/93_implementation_defined.md U3; log 1). -/

namespace Sys2Proof.Machine

/-- The state with the numbering of its reads starting at `k`. -/
def State.renumber (k : Nat) (s : State) : State := { s with memReads := k }

/-! ### Commands -/

/-- The checks read no DMEM. -/
theorem check_renumber (i : Instr) (k : Nat) (s : State) : check i (s.renumber k) = check i s := by
  cases i <;> rfl

/-- Where every element a command reads is written, the numbering is no input of the command. -/
theorem sameInputs_renumber {i : Instr} {s : State} (h : OperandsWritten i s) (k : Nat) :
    SameInputs i s (s.renumber k) := by
  refine ⟨rfl, rfl, rfl, rfl, rfl, rfl, rfl, rfl, rfl, rfl, fun a ha => ?_⟩
  obtain ⟨e, he⟩ := Option.isSome_iff_exists.mp (h a ha)
  exact ⟨e, he, he⟩

theorem effectOf_renumber {i : Instr} {s : State} (h : OperandsWritten i s) (k : Nat) :
    effectOf i (s.renumber k) = (effectOf i s).renumber (effectOf i (s.renumber k)).memReads := by
  have hsame := sameInputs_renumber h k
  have hdmem : (effectOf i (s.renumber k)).dmem = (effectOf i s).dmem := by
    rw [effectOf_dmem, effectOf_dmem, ← hsame.storeAddr_eq, ← hsame.storeCount_eq]
    exact Memory.storeElems_congr _ _ _ fun j hj => (hsame.storeVal_eq j hj).symm
  have hcount : (effectOf i (s.renumber k)).nzcnt = (effectOf i s).nzcnt := by
    by_cases hi : i = .quant ∨ i = .addsign
    · exact (hsame.nzcnt_eq hi).symm
    · rw [effectOf_nzcnt_of_not_counting (not_or.mp hi), effectOf_nzcnt_of_not_counting (not_or.mp hi)]
      rfl
  have hdqsat : (effectOf i (s.renumber k)).dqsat = (effectOf i s).dqsat := (hsame.dqsat_eq rfl).symm
  have hframe := effectOf_frame i (s.renumber k)
  rw [hdmem, hcount, hdqsat] at hframe
  exact hframe.trans (congrArg (State.renumber _) (effectOf_frame i s)).symm

theorem exec_renumber {i : Instr} {s t : State} (h : check i s = none → OperandsWritten i s) (k : Nat)
    (hexec : exec i s = .next t) : ∃ k', exec i (s.renumber k) = .next (t.renumber k') := by
  obtain ⟨e, hc, rfl⟩ | ⟨hc, rfl⟩ := exec_cases hexec
  · exact ⟨k, exec_of_error ((check_renumber i k s).trans hc)⟩
  · refine ⟨(effectOf i (s.renumber k)).memReads, ?_⟩
    rw [exec_of_pass ((check_renumber i k s).trans hc), effectOf_renumber (h hc) k]
    rfl

/-! ### Host accesses -/

theorem writeReg_renumber (r : Reg) (w : Word) (k : Nat) (s : State) :
    writeReg r w (s.renumber k) = (writeReg r w s).renumber k := by
  have hrow : ∀ (q : Nat) (v : Row), (s.renumber k).setRow q v = (s.setRow q v).renumber k := fun q v => by
    unfold State.setRow
    split <;> rfl
  cases r with
  | rowLo q => exact hrow q.val _
  | rowHi q => exact hrow q.val _
  | _ => rfl

theorem writeTarget_renumber (t : Target) (w : Word) (k : Nat) (s : State) :
    writeTarget t w (s.renumber k) = (writeTarget t w s).renumber k := by
  cases t with
  | reg r => exact writeReg_renumber r w k s
  | reserved => rfl
  | dmem j => rfl

/-- Where the elements of a DMEM word are written, a read of it does not see the numbering. -/
theorem readTarget_renumber {t : Target} {s : State}
    (h : ∀ j, t = .dmem j → (s.dmem.elem (2 * j)).isSome ∧ (s.dmem.elem (2 * j + 1)).isSome) (k : Nat) :
    readTarget t (s.renumber k) = readTarget t s := by
  cases t with
  | reg r => exact readReg_of_toDevice_eq r rfl
  | reserved => rfl
  | dmem j =>
    obtain ⟨h0, h1⟩ := h j rfl
    obtain ⟨e0, he0⟩ := Option.isSome_iff_exists.mp h0
    obtain ⟨e1, he1⟩ := Option.isSome_iff_exists.mp h1
    have hword : ∀ u : State, u.dmem = s.dmem → readTarget (.dmem j) u = e1 ++ e0 := fun u hu => by
      rw [readTarget_dmem, readDmemWord, State.readElem_of_written 1 (hu ▸ he1), State.readElem_of_written 0 (hu ▸ he0)]
    rw [hword s rfl, hword (s.renumber k) rfl]

theorem accessEffect_renumber {a : BusAccess} {s : State}
    (h : ∀ off size j, a = .read off size → targetOf off = .dmem j →
      (s.dmem.elem (2 * j)).isSome ∧ (s.dmem.elem (2 * j + 1)).isSome) (k : Nat) :
    ∃ k', accessEffect a (s.renumber k) = (accessEffect a s).renumber k' := by
  cases a with
  | read off size =>
    have hvalue := readTarget_renumber (t := targetOf off) (fun j hj => h off size j rfl hj) k
    refine ⟨k + (targetOf off).memReads, ?_⟩
    rw [accessEffect, hvalue]
    rfl
  | write off size w =>
    refine ⟨k, ?_⟩
    rw [accessEffect, writeTarget_renumber]
    rfl

/-! ### Steps and runs -/

/-- A step that reads no unwritten element does not see the numbering. -/
theorem step_renumber {s t : State} (hreads : ReadsWritten s) (k : Nat) (h : step s = .next t) :
    ∃ k', step (s.renumber k) = .next (t.renumber k') := by
  obtain ⟨hengine, hhost⟩ := hreads
  obtain ⟨hr, rfl⟩ | ⟨he, i, hd, hexec⟩ | ⟨he, ⟨e, hd⟩, rfl⟩ | ⟨a, rest, hmove, hacc, rfl⟩ | ⟨hr, hb, hp, rfl⟩ :=
    step_cases h
  · exact ⟨k, step_of_reset (s := s.renumber k) hr⟩
  · have he' : EngineMoves (s.renumber k) := he
    obtain ⟨k', hexec'⟩ := exec_renumber (fun hc => hengine he i hd hc) k hexec
    exact ⟨k', (step_of_engineMoves he').trans ((engineStep_of_ok (s := s.renumber k) hd).trans hexec')⟩
  · have he' : EngineMoves (s.renumber k) := he
    exact ⟨k, (step_of_engineMoves he').trans (engineStep_of_illegal (s := s.renumber k) hd)⟩
  · have hmove' : HostMoves (s.renumber k) a rest := hmove
    have hrest : (s.renumber k).withRest rest = (s.withRest rest).renumber k := rfl
    obtain ⟨k', heffect⟩ := accessEffect_renumber (a := a) (s := s.withRest rest)
      (fun off size j ha hj => hhost off size rest j (ha ▸ hmove) hj) k
    exact ⟨k', by rw [step_of_accepted hmove' hacc, hrest, heffect]⟩
  · exact ⟨k, step_of_idle (s := t.renumber k) hr hb hp⟩

/-- A safe run does not see the numbering, but for the number itself. -/
theorem run_renumber (n : Nat) {s : State} (h : SafeRun n s) (k : Nat) :
    ∃ t k', Host.Core.run Sys2Proof.core n s = .next t ∧
      Host.Core.run Sys2Proof.core n (s.renumber k) = .next (t.renumber k') := by
  induction n generalizing s k with
  | zero => exact ⟨s, k, run_zero s, run_zero _⟩
  | succ n ih =>
    obtain ⟨hreads, u, hstep, hrest⟩ := h
    obtain ⟨j, hstep'⟩ := step_renumber hreads k hstep
    rw [run_succ n hstep, run_succ n hstep']
    exact ih hrest j

end Sys2Proof.Machine
end

section
/-! PROOFS. Safe runs. -/

namespace Sys2Proof.Proofs

open Sys2Proof Sys2Proof.Machine

/-- Settles O60, by induction on the number of steps: a step that reads no unwritten element does not see the numbering. -/
theorem safeRunsIgnoreFreeReads : Obligations.SafeRunsIgnoreFreeReads := by
  unfold Obligations.SafeRunsIgnoreFreeReads
  intro n k s hsafe
  obtain ⟨t, k', hrun, hrun'⟩ := run_renumber n hsafe k
  exact ⟨t, t.renumber k', hrun, hrun', rfl⟩

end Sys2Proof.Proofs
end

section
/-! PROOFS. Host programs: a pending command completes whatever the host does, and the wait loop ends
(spec/30_encoding.md R95, R96, spec/70_reset_and_hazards.md R252; log 9). -/

namespace Sys2Proof.Machine

/-! ### Runs that reach a state in time -/

/-- Within `n` steps the run from `h` reaches a state with `P`. -/
def HostRun.Reaches (P : HostRun → Prop) (n : Nat) (h : HostRun) : Prop :=
  ∃ m h', m ≤ n ∧ HostRun.run m h = .next h' ∧ P h'

theorem reaches_of_now {P : HostRun → Prop} {h : HostRun} (n : Nat) (hP : P h) : h.Reaches P n :=
  ⟨0, h, Nat.zero_le n, hostRun_zero h, hP⟩

theorem reaches_of_step {P : HostRun → Prop} {n : Nat} {h g : HostRun} (hs : h.step = .next g) (hg : g.Reaches P n) :
    h.Reaches P (n + 1) := by
  obtain ⟨m, h', hm, hrun, hP⟩ := hg
  exact ⟨m + 1, h', Nat.succ_le_succ hm, (hostRun_succ m hs).trans hrun, hP⟩

theorem reaches_mono {P : HostRun → Prop} {m n : Nat} {h : HostRun} (hmn : m ≤ n) (hh : h.Reaches P m) :
    h.Reaches P n := by
  obtain ⟨k, h', hk, hrun, hP⟩ := hh
  exact ⟨k, h', hk.trans hmn, hrun, hP⟩

/-! ### The host's operation, in its cases (R95) -/

theorem operate_of_answered {h : HostRun} {w : Awaiting} {r : Reply} {rs : List Reply} (ha : h.awaiting = some w)
    (hr : h.device.replies = r :: rs) : h.operate = .next (h.deliver w r) := by
  simp only [HostRun.operate, ha, hr]

theorem operate_of_unanswered {h : HostRun} {w : Awaiting} (ha : h.awaiting = some w) (hr : h.device.replies = []) :
    h.operate = h.deviceStep := by
  simp only [HostRun.operate, ha, hr]

theorem operate_of_end {h : HostRun} (ha : h.awaiting = none) (hop : h.program[h.pos]? = none) :
    h.operate = h.deviceStep := by
  simp only [HostRun.operate, ha, hop]

theorem operate_of_halt {h : HostRun} (ha : h.awaiting = none) (hop : h.program[h.pos]? = some .halt) :
    h.operate = h.deviceStep := by
  simp only [HostRun.operate, ha, hop]

theorem operate_of_wr {h : HostRun} {off : BusOffset} {v : Word} (ha : h.awaiting = none)
    (hop : h.program[h.pos]? = some (.wr off v)) : h.operate = .next (h.request (.write off 4 v) .written) := by
  simp only [HostRun.operate, ha, hop]

theorem operate_of_rd {h : HostRun} {off : BusOffset} {name : Nat} (ha : h.awaiting = none)
    (hop : h.program[h.pos]? = some (.rd off name)) : h.operate = .next (h.request (.read off 4) (.named name)) := by
  simp only [HostRun.operate, ha, hop]

theorem operate_of_bnz {h : HostRun} {name : Nat} {mask : Word} {label : Nat} (ha : h.awaiting = none)
    (hop : h.program[h.pos]? = some (.bnz name mask label)) :
    h.operate = h.branch (if (h.value name &&& mask) ≠ 0#32 then label else h.pos + 1) := by
  simp only [HostRun.operate, ha, hop]

theorem operate_of_b {h : HostRun} {label : Nat} (ha : h.awaiting = none)
    (hop : h.program[h.pos]? = some (.b label)) : h.operate = h.branch label := by
  simp only [HostRun.operate, ha, hop]

/-! ### A host program while a command is pending -/

/-- What the host may do before the device's next move: take an answer and ask for an access, ask, or nothing. -/
def HostRun.work (h : HostRun) : Nat :=
  match h.awaiting with
  | none => 2
  | some _ => if h.device.replies = [] then 1 else 3

theorem work_of_none {h : HostRun} (ha : h.awaiting = none) : h.work = 2 := by
  rw [HostRun.work, ha]

theorem work_of_unanswered {h : HostRun} {w : Awaiting} (ha : h.awaiting = some w) (hr : h.device.replies = []) :
    h.work = 1 := by
  simp only [HostRun.work, ha, hr, if_true]

theorem work_of_answered {h : HostRun} {w : Awaiting} (ha : h.awaiting = some w) (hr : h.device.replies ≠ []) :
    h.work = 3 := by
  simp only [HostRun.work, ha, hr, if_false]

theorem work_pos (h : HostRun) : 0 < h.work := by
  unfold HostRun.work
  split
  · omega
  · split <;> omega

theorem work_le (h : HostRun) : h.work ≤ 3 := by
  unfold HostRun.work
  split
  · omega
  · split <;> omega

/-- How many steps may go by before the pending command completes: three for each thing that may go before it. -/
def HostRun.budget (h : HostRun) : Nat := 3 * h.device.pollsLeft + h.work

/-- A host program that makes accepted accesses only, with the word `w` waiting. -/
structure ProgramAwaits (w : Word) (h : HostRun) : Prop where
  device : Awaits w h.device
  aligned : h.program.all HostOp.aligned = true

/-- The step of a run either completes the pending word or leaves it pending with a smaller budget. -/
def Advances (w : Word) (h : HostRun) (o : Host.Outcome HostRun Fault Refusal) : Prop :=
  ∃ g, o = .next g ∧ (Completed w g.device ∨ ProgramAwaits w g ∧ g.budget < h.budget)

/-- An operation of the program is aligned. -/
theorem aligned_of_getElem? {h : HostRun} {op : HostOp} (hal : h.program.all HostOp.aligned = true)
    (hop : h.program[h.pos]? = some op) : op.aligned = true :=
  List.all_eq_true.mp hal op (List.mem_of_getElem? hop)

/-- The device's move: it executes the word, or makes an access, which counts down. -/
theorem advances_deviceStep {w : Word} {h : HostRun} (hw : ProgramAwaits w h) : Advances w h h.deviceStep := by
  obtain ⟨t, hstep, hdone | ⟨hwaits, hpolls, -⟩⟩ := step_of_awaits hw.device
  · exact ⟨_, deviceStep_of_next hstep, Or.inl hdone⟩
  · refine ⟨_, deviceStep_of_next hstep, Or.inr ⟨⟨hwaits, hw.aligned⟩, ?_⟩⟩
    have hle := work_le { h with device := t }
    have hpos := work_pos h
    show 3 * t.pollsLeft + _ < 3 * h.device.pollsLeft + _
    omega

/-- An answer arrives: the host is one operation nearer to the device's next move. -/
theorem advances_deliver {w : Word} {h : HostRun} {aw : Awaiting} {r : Reply} {rs : List Reply} (hw : ProgramAwaits w h)
    (ha : h.awaiting = some aw) (hr : h.device.replies = r :: rs) : Advances w h (.next (h.deliver aw r)) := by
  refine ⟨_, rfl, Or.inr ⟨⟨?_, ?_⟩, ?_⟩⟩
  · rw [deliver_device]
    exact hw.device
  · rw [deliver_program]
    exact hw.aligned
  · rw [HostRun.budget, HostRun.budget, deliver_device, work_of_none (deliver_awaiting h aw r),
      work_of_answered ha (hr ▸ List.cons_ne_nil r rs)]
    omega

/-- The host asks for an accepted access: the device's move is next. -/
theorem advances_request {w : Word} {h : HostRun} {a : BusAccess} (aw : Awaiting) (hw : ProgramAwaits w h)
    (ha : h.awaiting = none) (hacc : a.accepted = true) : Advances w h (.next (h.request a aw)) := by
  have hdev := hw.device
  refine ⟨_, rfl, Or.inr ⟨⟨⟨hdev.rst, hdev.busy, hdev.cmdLast, ?_⟩, hw.aligned⟩, ?_⟩⟩
  · exact List.forall_mem_singleton.mpr hacc
  · rw [HostRun.budget, HostRun.budget, work_of_none ha, work_of_unanswered (request_awaiting h a aw) rfl]
    exact Nat.lt_succ_self _

/-- The host branches: the command executes before the branch, or the branch counts down. -/
theorem advances_branch {w : Word} {h : HostRun} (target : Nat) (hw : ProgramAwaits w h) (ha : h.awaiting = none) :
    Advances w h (h.branch target) := by
  have hdev := hw.device
  rcases Nat.eq_zero_or_pos h.device.pollsLeft with hzero | hpos
  · rw [branch_of_due hdev.busy hzero]
    exact advances_deviceStep hw
  · rw [branch_of_not_due fun hdue => Nat.ne_of_gt hpos hdue.right]
    refine ⟨_, rfl, Or.inr ⟨⟨⟨hdev.rst, hdev.busy, hdev.cmdLast, hdev.accepted⟩, hw.aligned⟩, ?_⟩⟩
    rw [HostRun.budget, HostRun.budget, work_of_none ha, work_of_none (h := { h with pos := target, device := _ }) ha]
    show 3 * (h.device.pollsLeft - 1) + 2 < 3 * h.device.pollsLeft + 2
    omega

theorem accepted_of_aligned {a : BusAccess} (hsize : a.size = 4) (hal : (a.off.toNat % 4 == 0) = true) :
    a.accepted = true :=
  (accepted_iff a).mpr ⟨hsize, eq_of_beq hal⟩

/-- While a command is pending, every step of a host program completes it or has a smaller budget left. -/
theorem advances_step {w : Word} {h : HostRun} (hw : ProgramAwaits w h) : Advances w h h.step := by
  rw [hostRun_step_of_running hw.device.rst]
  cases ha : h.awaiting with
  | some aw =>
    cases hr : h.device.replies with
    | nil =>
      rw [operate_of_unanswered ha hr]
      exact advances_deviceStep hw
    | cons r rs =>
      rw [operate_of_answered ha hr]
      exact advances_deliver hw ha hr
  | none =>
    cases hop : h.program[h.pos]? with
    | none =>
      rw [operate_of_end ha hop]
      exact advances_deviceStep hw
    | some op =>
      have hal := aligned_of_getElem? hw.aligned hop
      cases op with
      | wr off v =>
        rw [operate_of_wr ha hop]
        exact advances_request .written hw ha (accepted_of_aligned rfl hal)
      | rd off name =>
        rw [operate_of_rd ha hop]
        exact advances_request (.named name) hw ha (accepted_of_aligned rfl hal)
      | bnz name mask label =>
        rw [operate_of_bnz ha hop]
        exact advances_branch _ hw ha
      | b label =>
        rw [operate_of_b ha hop]
        exact advances_branch label hw ha
      | halt =>
        rw [operate_of_halt ha hop]
        exact advances_deviceStep hw

/-- A pending command completes within the budget. -/
theorem reaches_completed {w : Word} (n : Nat) {h : HostRun} (hw : ProgramAwaits w h) (hn : h.budget ≤ n) :
    h.Reaches (fun g => Completed w g.device) n := by
  induction n generalizing h with
  | zero =>
    have hpos := work_pos h
    rw [HostRun.budget] at hn
    omega
  | succ n ih =>
    obtain ⟨g, hstep, hdone | ⟨hwaits, hless⟩⟩ := advances_step hw
    · exact reaches_of_step hstep (reaches_of_now n hdone)
    · exact reaches_of_step hstep (ih hwaits (by omega))

/-! ### The wait loop (R96) -/

/-- BUSY is bit 0 of the STATUS word (R24). -/
theorem statusWord_and_one_ne_zero_iff (s : State) : (s.statusWord &&& 1#32) ≠ 0#32 ↔ s.busy = true := by
  unfold State.statusWord
  generalize s.errCode = code
  generalize s.busy = busy, s.done = done, s.errs = errs, s.dqsat = dqsat
  revert code busy done errs dqsat
  decide

/-- A run with a wait loop at `at0` that polls STATUS as `st`, the last accepted word being `w`, and no reset. -/
structure HasWaitLoop (st at0 : Nat) (w : Word) (h : HostRun) : Prop where
  poll : h.program[at0]? = some (.rd 0x0004#15 st)
  back : h.program[at0 + 1]? = some (.bnz st 0x1#32 at0)
  rst : h.device.rst = false
  cmdLast : h.device.cmdLast = w

/-- The host is about to poll. -/
structure AtPoll (at0 : Nat) (h : HostRun) : Prop where
  pos : h.pos = at0
  awaiting : h.awaiting = none

/-- The host has asked for STATUS and has no answer yet. -/
structure AtAnswer (st at0 : Nat) (h : HostRun) : Prop where
  pos : h.pos = at0
  awaiting : h.awaiting = some (.named st)
  pending : h.device.pending = [.read 0x0004#15 4]
  replies : h.device.replies = []

/-- STATUS has answered, and its BUSY bit is `saw`. -/
structure AtDelivery (st at0 : Nat) (saw : Bool) (h : HostRun) : Prop where
  pos : h.pos = at0
  awaiting : h.awaiting = some (.named st)
  answer : ∃ v rs, h.device.replies = .data v :: rs ∧ ((v &&& 0x1#32) ≠ 0#32 ↔ saw = true)

/-- The host has polled and is about to branch on the BUSY it saw. -/
structure AtBranch (st at0 : Nat) (saw : Bool) (h : HostRun) : Prop where
  pos : h.pos = at0 + 1
  awaiting : h.awaiting = none
  value : (h.value st &&& 0x1#32) ≠ 0#32 ↔ saw = true

/-- The host has left the loop with the command completed. -/
structure PastLoop (at0 : Nat) (w : Word) (h : HostRun) : Prop where
  pos : h.pos = at0 + 2
  awaiting : h.awaiting = none
  busy : h.device.busy = false
  cmdLast : h.device.cmdLast = w

/-- The poll asks for STATUS. -/
theorem step_of_atPoll {st at0 : Nat} {w : Word} {h : HostRun} (hl : HasWaitLoop st at0 w h) (hp : AtPoll at0 h) :
    ∃ g, h.step = .next g ∧ HasWaitLoop st at0 w g ∧ AtAnswer st at0 g ∧ g.device.busy = h.device.busy ∧
      g.device.pollsLeft = h.device.pollsLeft := by
  have hop : h.program[h.pos]? = some (.rd 0x0004#15 st) := by rw [hp.pos]; exact hl.poll
  exact ⟨_, (hostRun_step_of_running hl.rst).trans (operate_of_rd hp.awaiting hop), ⟨hl.poll, hl.back, hl.rst, hl.cmdLast⟩,
    ⟨hp.pos, rfl, rfl, rfl⟩, rfl, rfl⟩

/-- Where the read is made, it answers BUSY as it is. -/
theorem step_of_atAnswer {st at0 : Nat} {w : Word} {h : HostRun} (hl : HasWaitLoop st at0 w h) (ha : AtAnswer st at0 h)
    (hturn : h.device.busy = false ∨ 0 < h.device.pollsLeft) :
    ∃ g, h.step = .next g ∧ HasWaitLoop st at0 w g ∧ AtDelivery st at0 h.device.busy g ∧
      g.device.busy = h.device.busy ∧ g.device.pollsLeft = h.device.pollsLeft - 1 := by
  have hns : (BusAccess.read 0x0004#15 4).stalls = false := by decide
  have hmove : HostMoves h.device (.read 0x0004#15 4) [] :=
    ⟨hl.rst, ha.pending, hturn.imp_right fun hpos => ⟨hns, hpos⟩⟩
  have hread := step_of_read_reg hmove targetOf_status rfl rfl
  have hstep := (hostRun_step_of_running hl.rst).trans
    ((operate_of_unanswered ha.awaiting ha.replies).trans (deviceStep_of_next hread))
  exact ⟨_, hstep, ⟨hl.poll, hl.back, hl.rst, hl.cmdLast⟩,
    ⟨ha.pos, ha.awaiting, _, _, rfl, statusWord_and_one_ne_zero_iff h.device⟩, rfl, rfl⟩

/-- A value that has just been named is what the name stands for (R95). -/
theorem value_deliver (h : HostRun) (name : Nat) (v : Word) :
    (h.deliver (.named name) (.data v)).value name = v := by
  simp [HostRun.deliver, HostRun.value]

/-- The answer gets its name, and the host goes on to the branch. -/
theorem step_of_atDelivery {st at0 : Nat} {w : Word} {saw : Bool} {h : HostRun} (hl : HasWaitLoop st at0 w h)
    (hd : AtDelivery st at0 saw h) :
    ∃ g, h.step = .next g ∧ HasWaitLoop st at0 w g ∧ AtBranch st at0 saw g ∧ g.device.busy = h.device.busy ∧
      g.device.pollsLeft = h.device.pollsLeft := by
  obtain ⟨v, rs, hreplies, hsaw⟩ := hd.answer
  refine ⟨_, (hostRun_step_of_running hl.rst).trans (operate_of_answered hd.awaiting hreplies),
    ⟨hl.poll, hl.back, hl.rst, hl.cmdLast⟩, ⟨congrArg (· + 1) hd.pos, rfl, ?_⟩, rfl, rfl⟩
  rw [value_deliver]
  exact hsaw

/-- Where a pending command is due, the device's move executes it and leaves the host's side alone (R252). -/
theorem deviceStep_of_due {st at0 : Nat} {w : Word} {h : HostRun} (hl : HasWaitLoop st at0 w h)
    (hb : h.device.busy = true) (hzero : h.device.pollsLeft = 0) :
    ∃ t, h.deviceStep = .next { h with device := t } ∧ HasWaitLoop st at0 w { h with device := t } ∧ t.busy = false ∧
      t.pending = h.device.pending ∧ t.replies = h.device.replies := by
  obtain ⟨t, hstep, hdone, hrst, hpending, hreplies⟩ := step_completes ⟨hl.rst, hb, Or.inr (Or.inr hzero)⟩ hl.cmdLast
  exact ⟨t, deviceStep_of_next hstep, ⟨hl.poll, hl.back, hrst.trans hl.rst, hdone.cmdLast⟩, hdone.busy, hpending, hreplies⟩

/-- The branch, in its own terms: the host goes back where it saw BUSY, else on. -/
theorem operate_of_atBranch {st at0 : Nat} {w : Word} {saw : Bool} {h : HostRun} (hl : HasWaitLoop st at0 w h)
    (hb : AtBranch st at0 saw h) : h.operate = h.branch (if saw = true then at0 else at0 + 2) := by
  have hop : h.program[h.pos]? = some (.bnz st 0x1#32 at0) := by rw [hb.pos]; exact hl.back
  rw [operate_of_bnz hb.awaiting hop, hb.pos]
  exact congrArg h.branch (if_congr hb.value rfl rfl)

/-- A branch that is not due to wait takes the host to its target and counts down. -/
theorem step_of_atBranch {st at0 : Nat} {w : Word} {saw : Bool} {h : HostRun} (hl : HasWaitLoop st at0 w h)
    (hb : AtBranch st at0 saw h) (hturn : h.device.busy = false ∨ 0 < h.device.pollsLeft) :
    ∃ g, h.step = .next g ∧ HasWaitLoop st at0 w g ∧ g.pos = (if saw = true then at0 else at0 + 2) ∧ g.awaiting = none ∧
      g.device.busy = h.device.busy ∧ g.device.pollsLeft = h.device.pollsLeft - 1 := by
  have hnotDue : ¬ (h.device.busy = true ∧ h.device.pollsLeft = 0) := by
    rintro ⟨hbusy, hzero⟩
    rcases hturn with hidle | hpos
    · rw [hbusy] at hidle
      cases hidle
    · omega
  exact ⟨_, (hostRun_step_of_running hl.rst).trans ((operate_of_atBranch hl hb).trans (branch_of_not_due hnotDue)),
    ⟨hl.poll, hl.back, hl.rst, hl.cmdLast⟩, rfl, hb.awaiting, rfl, rfl⟩

/-- A poll that is answered brings the host to the branch in two steps. -/
theorem reaches_of_atAnswer {P : HostRun → Prop} {n st at0 : Nat} {w : Word} {h : HostRun} (hl : HasWaitLoop st at0 w h)
    (ha : AtAnswer st at0 h) (hturn : h.device.busy = false ∨ 0 < h.device.pollsLeft)
    (hgo : ∀ g, HasWaitLoop st at0 w g → AtBranch st at0 h.device.busy g → g.device.busy = h.device.busy →
      g.device.pollsLeft = h.device.pollsLeft - 1 → g.Reaches P n) : h.Reaches P (n + 2) := by
  obtain ⟨g, hstep, hlg, hd, hbusy, hpolls⟩ := step_of_atAnswer hl ha hturn
  obtain ⟨g', hstep', hlg', hb, hbusy', hpolls'⟩ := step_of_atDelivery hlg hd
  exact reaches_of_step hstep (reaches_of_step hstep'
    (hgo g' hlg' hb (hbusy'.trans hbusy) (hpolls'.trans hpolls)))

/-- With the command completed before the read is made, the host leaves the loop. -/
theorem leaves_of_answer {st at0 : Nat} {w : Word} {h : HostRun} (hl : HasWaitLoop st at0 w h) (ha : AtAnswer st at0 h)
    (hidle : h.device.busy = false) : h.Reaches (PastLoop at0 w) 3 := by
  refine reaches_of_atAnswer (n := 1) hl ha (Or.inl hidle) fun g hlg hb hbusy _ => ?_
  rw [hidle] at hb hbusy
  obtain ⟨g', hstep, hlg', hpos, hawait, hbusy', -⟩ := step_of_atBranch hlg hb (Or.inl hbusy)
  exact reaches_of_step hstep (reaches_of_now 0 ⟨hpos, hawait, hbusy'.trans hbusy, hlg'.cmdLast⟩)

/-- With the command completed before the poll, the host leaves the loop. -/
theorem leaves_of_poll {st at0 : Nat} {w : Word} {h : HostRun} (hl : HasWaitLoop st at0 w h) (hp : AtPoll at0 h)
    (hidle : h.device.busy = false) : h.Reaches (PastLoop at0 w) 4 := by
  obtain ⟨g, hstep, hlg, ha, hbusy, -⟩ := step_of_atPoll hl hp
  exact reaches_of_step hstep (leaves_of_answer hlg ha (hbusy.trans hidle))

/-- Where the host saw BUSY and the command is due, it completes before the branch, and the next poll leaves the loop. -/
theorem leaves_of_branch_due {st at0 : Nat} {w : Word} {h : HostRun} (hl : HasWaitLoop st at0 w h)
    (hb : AtBranch st at0 true h) (hbusy : h.device.busy = true) (hzero : h.device.pollsLeft = 0) :
    h.Reaches (PastLoop at0 w) 6 := by
  obtain ⟨t, hdevice, hlt, hidle, -, -⟩ := deviceStep_of_due hl hbusy hzero
  have hstep := (hostRun_step_of_running hl.rst).trans
    ((operate_of_atBranch hl hb).trans ((branch_of_due hbusy hzero).trans hdevice))
  have hbt : AtBranch st at0 true { h with device := t } := ⟨hb.pos, hb.awaiting, hb.value⟩
  obtain ⟨g, hback, hlg, hpos, hawait, hstill, -⟩ := step_of_atBranch hlt hbt (Or.inl hidle)
  exact reaches_of_step hstep (reaches_of_step hback (leaves_of_poll hlg ⟨hpos, hawait⟩ (hstill.trans hidle)))

/-- The wait loop ends: each round of four steps counts down by two, the read and the branch, until the command is due. -/
theorem leaves_of_pending {st at0 : Nat} {w : Word} (p : Nat) {h : HostRun} (hl : HasWaitLoop st at0 w h)
    (hp : AtPoll at0 h) (hbusy : h.device.busy = true) (hpolls : h.device.pollsLeft = p) :
    h.Reaches (PastLoop at0 w) (4 * p + 5) := by
  induction p using Nat.strong_induction_on generalizing h with
  | _ p ih =>
    obtain ⟨g, hstep, hlg, ha, hbusyG, hpollsG⟩ := step_of_atPoll hl hp
    rw [hbusy] at hbusyG
    rw [hpolls] at hpollsG
    rcases Nat.eq_zero_or_pos p with hzero | hpos
    · obtain ⟨t, hdevice, hlt, hidle, hpending, hreplies⟩ := deviceStep_of_due hlg hbusyG (hpollsG.trans hzero)
      have hdue := (hostRun_step_of_running hlg.rst).trans ((operate_of_unanswered ha.awaiting ha.replies).trans hdevice)
      have hat : AtAnswer st at0 { g with device := t } :=
        ⟨ha.pos, ha.awaiting, hpending.trans ha.pending, hreplies.trans ha.replies⟩
      exact reaches_mono (by omega) (reaches_of_step hstep (reaches_of_step hdue (leaves_of_answer hlt hat hidle)))
    · refine reaches_mono (m := 4 * p + 2 + 2 + 1) (by omega) (reaches_of_step hstep ?_)
      refine reaches_of_atAnswer hlg ha (Or.inr (by omega)) fun g' hlg' hb hbusy' hpolls' => ?_
      rw [hbusyG] at hb hbusy'
      rw [hpollsG] at hpolls'
      rcases Nat.eq_zero_or_pos g'.device.pollsLeft with hdue | hmore
      · exact reaches_mono (by omega) (leaves_of_branch_due hlg' hb hbusy' hdue)
      · obtain ⟨u, hback, hlu, hposU, hawait, hbusyU, hpollsU⟩ := step_of_atBranch hlg' hb (Or.inr hmore)
        have hrest := ih u.device.pollsLeft (by omega) hlu ⟨hposU, hawait⟩ (hbusyU.trans hbusy') rfl
        exact reaches_mono (by omega) (reaches_of_step hback hrest)

end Sys2Proof.Machine
end

section
/-! PROOFS. Host programs. -/

namespace Sys2Proof.Proofs

open Sys2Proof Sys2Proof.Machine

/-- Settles O56, by induction on what is left to go before the command, two at a time. -/
theorem waitLoopEnds : Obligations.WaitLoopEnds := by
  unfold Obligations.WaitLoopEnds
  intro h st ha hpoll hback hr hb
  obtain ⟨n, g, hn, hrun, hout⟩ :=
    leaves_of_pending h.device.pollsLeft (w := h.device.cmdLast) ⟨hpoll, hback, hr, rfl⟩ ⟨rfl, ha⟩ hb rfl
  exact ⟨n, g, hn, hrun, hout.pos, hout.awaiting, hout.busy, hout.cmdLast⟩

/-- Settles O57, by induction on the budget, which every step spends. -/
theorem hostProgramsCompleteCommands : Obligations.HostProgramsCompleteCommands := by
  unfold Obligations.HostProgramsCompleteCommands
  intro h hr hb hacc hal
  have hbudget : h.budget ≤ 3 * h.device.pollsLeft + 3 := Nat.add_le_add_left (work_le h) _
  obtain ⟨n, g, hn, hrun, hdone⟩ := reaches_completed (w := h.device.cmdLast) _ ⟨⟨hr, hb, rfl, hacc⟩, hal⟩ hbudget
  exact ⟨n, g, hn, hrun, hdone.busy, hdone.done, hdone.cmdLast⟩

end Sys2Proof.Proofs
end
